-- ==== Sys2Proof/Word.lean ====
section
/-! DEFINITION. The 32-bit register word and the byte (00_scope.md R7, R8). -/

namespace Sys2Proof

/-- A register value or a mask: unsigned, 32 bits, bit 0 least significant (R8). -/
abbrev Word := BitVec 32

/-- A byte of the little-endian window (R45). -/
abbrev Byte := BitVec 8

end Sys2Proof
end

