-- ==== Sys2Proof/Config.lean ====
section
/-! DEFINITION. What an implementation or its environment fixes: the constants of 00_scope.md R7,
the answers the environment may give, and the free values (constants with no body). -/

namespace Sys2Proof

/-- The environment's answer to the lookup of a parent clock (R87). -/
inductive Lookup where
  | ok | transient | permanent
deriving DecidableEq, Repr, Inhabited

/-- The environment's answer to the lookup of the optional adjustment clock (R121). -/
inductive AdjLookup where
  | absent | present | transient | permanent
deriving DecidableEq, Repr, Inhabited

/-- What the clock framework and the parent providers choose inside one rate request (R98, R99):
the select, a new rate for each parent (`none`: unchanged), the divisor less 2, and which of the
two writes comes first or is left out where the field already holds its value. -/
structure RateChoice where
  sel : Bool
  newP0 : Option Rat
  newP1 : Option Rat
  divLess2 : Fin 6
  divFirst : Bool
  skipSel : Bool
  skipDiv : Bool
deriving DecidableEq, Repr, Inhabited

/-- The select of the PHY interface (10_state.md R36): RGMII, RMII, or neither of them. -/
inductive PhyIf where
  | rgmii | rmii | neither
deriving DecidableEq, Repr, Inhabited

namespace Config

/-- `TX_RATE`: the rate the configuration sequence requests, in Hz (R7, R115). -/
def txRate : Nat := 125000000

/-- The divisor table of CLK_M250_DIV (R7, R94). -/
def divisors : List Nat := [2, 3, 4, 5, 6, 7]

/-- The default of tx-delay-ns (R7, R119). -/
def defaultTxDelay : Word := 2

/-- The default of rx-delay-ns (R7, R119). -/
def defaultRxDelay : Word := 0

/-- `DIV_LOW_HW` less one: open, so it has no body (R7, R89; log 27). -/
opaque divLowHwLess1 : Nat

/-- `DIV_LOW_HW`: the divisor the silicon applies for the raw values 0 and 1.
DEDUCED (log 27): a divisor is positive. -/
def divLowHw : Nat := divLowHwLess1 + 1

/-- Whether the n-th registration, rate set or clock enable fails (D16), once the script is used up. -/
opaque freeFail : Nat → Bool

/-- The n-th parent lookup's answer (R87), once the script is used up. -/
opaque freeLookup : Nat → Lookup

/-- The n-th adjustment-clock lookup's answer (R121), once the script is used up. -/
opaque freeAdj : Nat → AdjLookup

/-- What a PRG_ETH0 word with a reserved EXT_PHY_MODE selects: `unknown`, a draw that no claim may
constrain (R36, R74; log 29). -/
opaque freePhyIf : Word → PhyIf

/-- The n-th value read from PRG_ETH1 (R83), once the script is used up. -/
opaque freeWord : Nat → Word

/-- The n-th choice inside a rate request (R98), once the script is used up. -/
opaque freeRate : Nat → RateChoice

/-- Whether parent 0 and parent 1 go on running after the n-th gating off (R102), once the script
is used up. -/
opaque freeParents : Nat → Bool × Bool

end Config

end Sys2Proof
end

