-- ==== Sys2Proof/Syntax.lean ====
section
/-! DEFINITION. The operations: one constructor of `Instr` for each row of spec/opcode_table.json,
and the operation words they are written as (30_encoding.md R61, R78, R79). -/

namespace Sys2Proof

/-- The silicon families (00_scope.md R3). -/
inductive Family where
  | legacy | extMode
deriving DecidableEq, Repr, Inhabited

/-- PHY interface mode (00_scope.md R12). `other` keeps the text of the unrecognised mode string,
which the error InvalidPhyMode names (R108). -/
inductive PhyMode where
  | rgmii | rgmiiRxid | rgmiiId | rgmiiTxid | rmii
  | other (text : String)
deriving DecidableEq, Repr, Inhabited

/-- The nodes of the clock chain, in chain order (R86). -/
inductive Node where
  | m250Sel | m250Div | fixedDiv2 | rgmiiTxEn
deriving DecidableEq, Repr, Inhabited

/-- An operation: one constructor per row of the opcode table. The docstring of each names its row
and the rule that gives its meaning. -/
inductive Instr where
  /-- RD.ETH0 (R81) -/
  | rdEth0
  /-- WR.ETH0 #v (R82) -/
  | wrEth0 (v : Word)
  /-- RD.ETH1 (R83) -/
  | rdEth1
  /-- WR.ETH1 #v (R84) -/
  | wrEth1 (v : Word)
  /-- RGMII_MODE=RGMII (R66) -/
  | rgmiiModeRgmii
  /-- RGMII_MODE=RMII (R66) -/
  | rgmiiModeRmii
  /-- EXT_PHY_MODE=RGMII (R67) -/
  | extPhyModeRgmii
  /-- EXT_PHY_MODE=RMII (R67) -/
  | extPhyModeRmii
  /-- CLK_M250_SEL=0 (R68) -/
  | clkM250Sel0
  /-- CLK_M250_SEL=1 (R68) -/
  | clkM250Sel1
  /-- TXDLY=0 (R69) -/
  | txdly0
  /-- TXDLY=1 (R69) -/
  | txdly1
  /-- TXDLY=2 (R69) -/
  | txdly2
  /-- TXDLY=3 (R69) -/
  | txdly3
  /-- CLK_M250_DIV=2 (R70) -/
  | clkM250Div2
  /-- CLK_M250_DIV=3 (R70) -/
  | clkM250Div3
  /-- CLK_M250_DIV=4 (R70) -/
  | clkM250Div4
  /-- CLK_M250_DIV=5 (R70) -/
  | clkM250Div5
  /-- CLK_M250_DIV=6 (R70) -/
  | clkM250Div6
  /-- CLK_M250_DIV=7 (R70) -/
  | clkM250Div7
  /-- CLK_M250_DIV=0(low) (R70) -/
  | clkM250DivLow0
  /-- CLK_M250_DIV=1(low) (R70) -/
  | clkM250DivLow1
  /-- RGMII_TX_CLK_EN=1 (R71) -/
  | rgmiiTxClkEn1
  /-- RGMII_TX_CLK_EN=0 (R71) -/
  | rgmiiTxClkEn0
  /-- INVERTED_RMII_CLK=1 (R71) -/
  | invertedRmiiClk1
  /-- INVERTED_RMII_CLK=0 (R71) -/
  | invertedRmiiClk0
  /-- TX_AND_PHY_REF_CLK=1 (R71) -/
  | txAndPhyRefClk1
  /-- TX_AND_PHY_REF_CLK=0 (R71) -/
  | txAndPhyRefClk0
  /-- ADJ_ENABLE=1 (R71) -/
  | adjEnable1
  /-- ADJ_ENABLE=0 (R71) -/
  | adjEnable0
  /-- ADJ_SETUP=1 (R71) -/
  | adjSetup1
  /-- ADJ_SETUP=0 (R71) -/
  | adjSetup0
  /-- RXDLY=2ns (R72) -/
  | rxdly2ns
  /-- RXDLY=0ns (R72) -/
  | rxdly0ns
  /-- ADJ_DELAY (R73) -/
  | adjDelay
  /-- ADJ_SKEW (R73) -/
  | adjSkew
  /-- MW #off, #mask, #value (R85) -/
  | mw (off : Nat) (mask value : Word)
  /-- CHAIN.BUILD (R87) -/
  | chainBuild
  /-- CLK.GET_RATE node (R93) -/
  | clkGetRate (node : Node)
  /-- CLK.ROUND_RATE node, #hz (R95) -/
  | clkRoundRate (node : Node) (hz : Nat)
  /-- CLK.SET_PARENT m250_sel, #i (R96) -/
  | clkSetParent (node : Node) (i : Nat)
  /-- CLK.SET_DIV m250_div, #d (R97) -/
  | clkSetDiv (node : Node) (d : Nat)
  /-- CLK.SET_RATE rgmii_tx_en, #hz (R98) -/
  | clkSetRate (node : Node) (hz : Nat)
  /-- CLK.ENABLE rgmii_tx_en (R101) -/
  | clkEnable (node : Node)
  /-- CLK.DISABLE rgmii_tx_en (R102) -/
  | clkDisable (node : Node)
  /-- CHAIN.RELEASE (R104) -/
  | chainRelease
  /-- PHYMODE.APPLY (R105) -/
  | phymodeApply
  /-- ADJ.ENABLE (R113) -/
  | adjClkEnable
  /-- TIMING.APPLY (R109) -/
  | timingApply
  /-- ORCH.INIT (R122) -/
  | orchInit
  /-- ORCH.RELEASE (R132) -/
  | orchRelease
deriving DecidableEq, Repr

/-- The names of the pseudo-operations (R79). -/
inductive PseudoName where
  | mw | chainBuild | clkGetRate | clkRoundRate | clkSetParent | clkSetDiv | clkSetRate
  | clkEnable | clkDisable | chainRelease | phymodeApply | adjEnable | timingApply
  | orchInit | orchRelease
deriving DecidableEq, Repr

/-- An operand as it is written (R78, R79): a node name or an immediate. -/
inductive Operand where
  | node (n : Node)
  | imm (v : Nat)
deriving DecidableEq, Repr

/-- An operation word, one form for each format of R61. A bus transaction carries its byte offset
from BASE, its width in bits and, for a write, its data (R62). A `prg_eth0` word names the field
encoding by the mask and match of its row (R76). A pseudo-operation has no bits (R61): it is its
name and its operands (log 14). -/
inductive OpWord where
  | busRead (off width : Nat)
  | busWrite (off width : Nat) (data : Word)
  | prgEth0 (mask mtch : Word)
  | pseudo (name : PseudoName) (args : List Operand)
deriving DecidableEq, Repr

end Sys2Proof
end

