-- ==== Sys2Proof/Decode.lean ====
section
/-! DEFINITION. Decoding: the masks and field primitives (00_scope.md R11, 30_encoding.md R65), the
total decoder of a PRG_ETH0 word (R77), the decoder of operation words, the encoder, and the
opcode table's numbering of bits. -/

namespace Sys2Proof

/-! ## Masks (R11) -/

def rgmiiModeM : Word := 0x00000001
def extPhyModeM : Word := 0x00000007
def selM : Word := 0x00000010
def txdlyM : Word := 0x00000060
def divM : Word := 0x00000380
def gateM : Word := 0x00000400
def invM : Word := 0x00000800
def refM : Word := 0x00001000
def adjEnM : Word := 0x00002000
def adjSetupM : Word := 0x00004000
def adjDelayM : Word := 0x000F8000
def adjSkewM : Word := 0x01F00000

/-- The bits of ADJ_ENABLE and ADJ_SETUP together, the rows RXDLY of R72. -/
def rxdlyM : Word := 0x00006000

/-! ## Field primitives (R65) -/

/-- The mask of the field of width `w` at position `lo` (R65). -/
def fieldMask (w lo : Nat) : Word := ((1#32 <<< w) - 1) <<< lo

/-- `FIELD_GET`: the field under `mask`, shifted down to bit 0 (R65). -/
def fieldGet (mask : Word) (lo : Nat) (word : Word) : Word := (word &&& mask) >>> lo

/-- `FIELD_PREP`: the value moved to the field and truncated to it (R65). -/
def fieldPrep (mask : Word) (lo : Nat) (v : Word) : Word := (v <<< lo) &&& mask

/-! ## The PRG_ETH0 word (R63, R64, R77) -/

/-- The record every PRG_ETH0 word decodes to (R77). In family Legacy `modeBits` is RGMII_MODE and
`legacyRsvd` holds bits [2:1]; in family ExtMode `modeBits` is EXT_PHY_MODE. -/
structure Eth0Fields where
  modeBits : BitVec 3
  legacyRsvd : Option (BitVec 2)
  rsvd3 : Bool
  sel : Bool
  txdly : BitVec 2
  divRaw : BitVec 3
  gate : Bool
  inv : Bool
  ref : Bool
  adjEn : Bool
  adjSetup : Bool
  adjDelay : BitVec 5
  adjSkew : BitVec 5
  rsvd31_25 : BitVec 7
deriving DecidableEq, Repr

/-- Decoding a PRG_ETH0 word is total, and FAMILY changes only bits [2:0] (R75, R77). -/
def decodeEth0 (fam : Family) (word : Word) : Eth0Fields where
  modeBits :=
    match fam with
    | .legacy => (fieldGet rgmiiModeM 0 word).setWidth 3
    | .extMode => (fieldGet extPhyModeM 0 word).setWidth 3
  legacyRsvd :=
    match fam with
    | .legacy => some ((fieldGet (fieldMask 2 1) 1 word).setWidth 2)
    | .extMode => none
  rsvd3 := word.getLsbD 3
  sel := word.getLsbD 4
  txdly := (fieldGet txdlyM 5 word).setWidth 2
  divRaw := (fieldGet divM 7 word).setWidth 3
  gate := word.getLsbD 10
  inv := word.getLsbD 11
  ref := word.getLsbD 12
  adjEn := word.getLsbD 13
  adjSetup := word.getLsbD 14
  adjDelay := (fieldGet adjDelayM 15 word).setWidth 5
  adjSkew := (fieldGet adjSkewM 20 word).setWidth 5
  rsvd31_25 := (fieldGet (fieldMask 7 25) 25 word).setWidth 7

/-- The PRG_ETH0 word a record of fields makes up: the other direction of `decodeEth0` (R63, R64,
R65). -/
def assembleEth0 (f : Eth0Fields) : Word :=
  f.modeBits.setWidth 32
    ||| ((f.legacyRsvd.getD 0).setWidth 32 <<< 1)
    ||| ((BitVec.ofBool f.rsvd3).setWidth 32 <<< 3)
    ||| ((BitVec.ofBool f.sel).setWidth 32 <<< 4)
    ||| (f.txdly.setWidth 32 <<< 5)
    ||| (f.divRaw.setWidth 32 <<< 7)
    ||| ((BitVec.ofBool f.gate).setWidth 32 <<< 10)
    ||| ((BitVec.ofBool f.inv).setWidth 32 <<< 11)
    ||| ((BitVec.ofBool f.ref).setWidth 32 <<< 12)
    ||| ((BitVec.ofBool f.adjEn).setWidth 32 <<< 13)
    ||| ((BitVec.ofBool f.adjSetup).setWidth 32 <<< 14)
    ||| (f.adjDelay.setWidth 32 <<< 15)
    ||| (f.adjSkew.setWidth 32 <<< 20)
    ||| (f.rsvd31_25.setWidth 32 <<< 25)

/-! ## Operation words -/

/-- One `prg_eth0` row of the opcode table: the family it belongs to (none: both), its mask, its
match and its constructor (R76). -/
structure FieldRow where
  family : Option Family
  mask : Word
  mtch : Word
  instr : Instr
deriving DecidableEq, Repr

/-- The first rows of R66 to R70, in the table's order. -/
def fieldRowsLow : List FieldRow :=
  [
   ⟨some .legacy, rgmiiModeM, 0x00000001, .rgmiiModeRgmii⟩,
   ⟨some .legacy, rgmiiModeM, 0x00000000, .rgmiiModeRmii⟩,
   ⟨some .extMode, extPhyModeM, 0x00000001, .extPhyModeRgmii⟩,
   ⟨some .extMode, extPhyModeM, 0x00000004, .extPhyModeRmii⟩,
   ⟨none, selM, 0x00000000, .clkM250Sel0⟩,
   ⟨none, selM, 0x00000010, .clkM250Sel1⟩,
   ⟨none, txdlyM, 0x00000000, .txdly0⟩,
   ⟨none, txdlyM, 0x00000020, .txdly1⟩,
   ⟨none, txdlyM, 0x00000040, .txdly2⟩,
   ⟨none, txdlyM, 0x00000060, .txdly3⟩,
   ⟨none, divM, 0x00000100, .clkM250Div2⟩,
   ⟨none, divM, 0x00000180, .clkM250Div3⟩,
   ⟨none, divM, 0x00000200, .clkM250Div4⟩,
   ⟨none, divM, 0x00000280, .clkM250Div5⟩,
   ⟨none, divM, 0x00000300, .clkM250Div6⟩,
   ⟨none, divM, 0x00000380, .clkM250Div7⟩
  ]

/-- The other rows of R70 to R73, in the table's order. -/
def fieldRowsHigh : List FieldRow :=
  [
   ⟨none, divM, 0x00000000, .clkM250DivLow0⟩,
   ⟨none, divM, 0x00000080, .clkM250DivLow1⟩,
   ⟨none, gateM, 0x00000400, .rgmiiTxClkEn1⟩,
   ⟨none, gateM, 0x00000000, .rgmiiTxClkEn0⟩,
   ⟨none, invM, 0x00000800, .invertedRmiiClk1⟩,
   ⟨none, invM, 0x00000000, .invertedRmiiClk0⟩,
   ⟨none, refM, 0x00001000, .txAndPhyRefClk1⟩,
   ⟨none, refM, 0x00000000, .txAndPhyRefClk0⟩,
   ⟨none, adjEnM, 0x00002000, .adjEnable1⟩,
   ⟨none, adjEnM, 0x00000000, .adjEnable0⟩,
   ⟨none, adjSetupM, 0x00004000, .adjSetup1⟩,
   ⟨none, adjSetupM, 0x00000000, .adjSetup0⟩,
   ⟨none, rxdlyM, 0x00006000, .rxdly2ns⟩,
   ⟨none, rxdlyM, 0x00000000, .rxdly0ns⟩,
   ⟨none, adjDelayM, 0x00000000, .adjDelay⟩,
   ⟨none, adjSkewM, 0x00000000, .adjSkew⟩
  ]

/-- The 32 `prg_eth0` rows of the opcode table. -/
def fieldRows : List FieldRow := fieldRowsLow ++ fieldRowsHigh

/-- Whether the row belongs to the family (R75, R76). -/
def FieldRow.inFamily (r : FieldRow) (fam : Family) : Bool :=
  match r.family with
  | none => true
  | some f => f == fam

/-- The masks of the fields a PRG_ETH0 word is read by, in the order of R63 and R64 from bit 0 up: the
mode field, the undescribed bits, and every field that has rows, ADJ_ENABLE and ADJ_SETUP also
together (R72). -/
def fieldsOf (fam : Family) : List Word :=
  (match fam with
    | .legacy => [rgmiiModeM, fieldMask 2 1]
    | .extMode => [extPhyModeM]) ++
  [fieldMask 1 3, selM, txdlyM, divM, gateM, invM, refM, adjEnM, adjSetupM, rxdlyM, adjDelayM,
    adjSkewM, fieldMask 7 25]

/-- What a field of a PRG_ETH0 word holds: the encoding of a row, or a reserved value, which is a
value and no failure (R74, R76, R77). -/
inductive FieldReading where
  | row (i : Instr)
  | reserved (bits : Word)
deriving DecidableEq, Repr

/-- Reading one field of a PRG_ETH0 word: the row of the family whose mask is the field's and for
which `(word & mask) == match`; with no such row the value is reserved (R76). -/
def readField (fam : Family) (mask word : Word) : FieldReading :=
  match fieldRows.find? (fun r => r.inFamily fam && r.mask == mask && word &&& mask == r.mtch) with
  | some r => .row r.instr
  | none => .reserved (word &&& mask)

/-- The total decoder of a PRG_ETH0 word into rows, field by field (R76). -/
def readFields (fam : Family) (word : Word) : List (Word × FieldReading) :=
  (fieldsOf fam).map (fun mask => (mask, readField fam mask word))

/-- Why an operation word has no operation. All are refusals of the model (R46, R47, R74, R79); they
are safe. -/
inductive DecodeError where
  /-- A bus access whose width is not 32 bits (R46). -/
  | badWidth (width : Nat)
  /-- A bus access at an offset other than 0x0 and 0x4 (R47, R62). -/
  | badOffset (off : Nat)
  /-- A mask and match that no `prg_eth0` row has (R76). -/
  | noRow (mask mtch : Word)
  /-- Operands of another number or kind than the syntax gives the pseudo-operation (R79). -/
  | badOperands (name : PseudoName)
deriving DecidableEq, Repr

/-- The word an immediate of 32 bits stands for, if it is one (R78, R85). -/
def immWord (v : Nat) : Option Word :=
  if v < 2 ^ 32 then some (BitVec.ofNat 32 v) else none

/-- The operation a pseudo-operation's name and operands stand for (R79). -/
def decodePseudo (name : PseudoName) (args : List Operand) : Option Instr :=
  match name, args with
  | .mw, [.imm off, .imm mask, .imm value] =>
      match immWord mask, immWord value with
      | some m, some v => some (.mw off m v)
      | _, _ => none
  | .chainBuild, [] => some .chainBuild
  | .clkGetRate, [.node n] => some (.clkGetRate n)
  | .clkRoundRate, [.node n, .imm hz] => some (.clkRoundRate n hz)
  | .clkSetParent, [.node n, .imm i] => some (.clkSetParent n i)
  | .clkSetDiv, [.node n, .imm d] => some (.clkSetDiv n d)
  | .clkSetRate, [.node n, .imm hz] => some (.clkSetRate n hz)
  | .clkEnable, [.node n] => some (.clkEnable n)
  | .clkDisable, [.node n] => some (.clkDisable n)
  | .chainRelease, [] => some .chainRelease
  | .phymodeApply, [] => some .phymodeApply
  | .adjEnable, [] => some .adjClkEnable
  | .timingApply, [] => some .timingApply
  | .orchInit, [] => some .orchInit
  | .orchRelease, [] => some .orchRelease
  | _, _ => none

/-- The decoder of operation words: total, rejecting by name (R46, R47, R62, R76, R79). DESIGN CHOICE
(log 41): a bus access wrong in width and in offset is refused for either (R46, R47, R62, R74); the
error names the width. -/
def decode : OpWord → Except DecodeError Instr
  | .busRead off width =>
      if width ≠ 32 then .error (.badWidth width)
      else if off = 0 then .ok .rdEth0
      else if off = 4 then .ok .rdEth1
      else .error (.badOffset off)
  | .busWrite off width data =>
      if width ≠ 32 then .error (.badWidth width)
      else if off = 0 then .ok (.wrEth0 data)
      else if off = 4 then .ok (.wrEth1 data)
      else .error (.badOffset off)
  | .prgEth0 mask mtch =>
      match fieldRows.find? (fun r => r.mask == mask && r.mtch == mtch) with
      | some r => .ok r.instr
      | none => .error (.noRow mask mtch)
  | .pseudo name args =>
      match decodePseudo name args with
      | some i => .ok i
      | none => .error (.badOperands name)

/-- The operation word of an operation, from the same formats and rows (R62, R76, R78, R79). -/
def encode : Instr → OpWord
  | .rdEth0 => .busRead 0 32
  | .wrEth0 v => .busWrite 0 32 v
  | .rdEth1 => .busRead 4 32
  | .wrEth1 v => .busWrite 4 32 v
  | .rgmiiModeRgmii => .prgEth0 rgmiiModeM 0x00000001
  | .rgmiiModeRmii => .prgEth0 rgmiiModeM 0x00000000
  | .extPhyModeRgmii => .prgEth0 extPhyModeM 0x00000001
  | .extPhyModeRmii => .prgEth0 extPhyModeM 0x00000004
  | .clkM250Sel0 => .prgEth0 selM 0x00000000
  | .clkM250Sel1 => .prgEth0 selM 0x00000010
  | .txdly0 => .prgEth0 txdlyM 0x00000000
  | .txdly1 => .prgEth0 txdlyM 0x00000020
  | .txdly2 => .prgEth0 txdlyM 0x00000040
  | .txdly3 => .prgEth0 txdlyM 0x00000060
  | .clkM250Div2 => .prgEth0 divM 0x00000100
  | .clkM250Div3 => .prgEth0 divM 0x00000180
  | .clkM250Div4 => .prgEth0 divM 0x00000200
  | .clkM250Div5 => .prgEth0 divM 0x00000280
  | .clkM250Div6 => .prgEth0 divM 0x00000300
  | .clkM250Div7 => .prgEth0 divM 0x00000380
  | .clkM250DivLow0 => .prgEth0 divM 0x00000000
  | .clkM250DivLow1 => .prgEth0 divM 0x00000080
  | .rgmiiTxClkEn1 => .prgEth0 gateM 0x00000400
  | .rgmiiTxClkEn0 => .prgEth0 gateM 0x00000000
  | .invertedRmiiClk1 => .prgEth0 invM 0x00000800
  | .invertedRmiiClk0 => .prgEth0 invM 0x00000000
  | .txAndPhyRefClk1 => .prgEth0 refM 0x00001000
  | .txAndPhyRefClk0 => .prgEth0 refM 0x00000000
  | .adjEnable1 => .prgEth0 adjEnM 0x00002000
  | .adjEnable0 => .prgEth0 adjEnM 0x00000000
  | .adjSetup1 => .prgEth0 adjSetupM 0x00004000
  | .adjSetup0 => .prgEth0 adjSetupM 0x00000000
  | .rxdly2ns => .prgEth0 rxdlyM 0x00006000
  | .rxdly0ns => .prgEth0 rxdlyM 0x00000000
  | .adjDelay => .prgEth0 adjDelayM 0x00000000
  | .adjSkew => .prgEth0 adjSkewM 0x00000000
  | .mw off mask value => .pseudo .mw [.imm off, .imm mask.toNat, .imm value.toNat]
  | .chainBuild => .pseudo .chainBuild []
  | .clkGetRate n => .pseudo .clkGetRate [.node n]
  | .clkRoundRate n hz => .pseudo .clkRoundRate [.node n, .imm hz]
  | .clkSetParent n i => .pseudo .clkSetParent [.node n, .imm i]
  | .clkSetDiv n d => .pseudo .clkSetDiv [.node n, .imm d]
  | .clkSetRate n hz => .pseudo .clkSetRate [.node n, .imm hz]
  | .clkEnable n => .pseudo .clkEnable [.node n]
  | .clkDisable n => .pseudo .clkDisable [.node n]
  | .chainRelease => .pseudo .chainRelease []
  | .phymodeApply => .pseudo .phymodeApply []
  | .adjClkEnable => .pseudo .adjEnable []
  | .timingApply => .pseudo .timingApply []
  | .orchInit => .pseudo .orchInit []
  | .orchRelease => .pseudo .orchRelease []

/-! ## The opcode table's numbering

The table gives 36 rows bits, and those bits do not tell the rows apart: the direction of a bus
transaction is not among them, and every row whose match is 0 has the same word (log 12). -/

/-- The rows the table gives bits, as (mask, match, operation word), in the table's order. -/
def tableRows : List (Word × Word × OpWord) :=
  [(0x7, 0x0, .busRead 0 32), (0x7, 0x0, .busWrite 0 32 0),
   (0x7, 0x4, .busRead 4 32), (0x7, 0x4, .busWrite 4 32 0)] ++
  fieldRows.map (fun r => (r.mask, r.mtch, .prgEth0 r.mask r.mtch))

/-- How many bits a mask takes, in whole bytes. -/
def maskBits (mask : Word) : Nat := (mask.toNat.log2 / 8 + 1) * 8

/-- The operation word of the table word `w` of `nbits` bits. DESIGN CHOICE (log 12): the first row,
in the table's order, whose match is `w` and whose mask takes `nbits` bits; failing that, the first
whose match is `w`; failing that, a word that decodes to nothing. -/
def OpWord.ofTable (nbits w : Nat) : OpWord :=
  let v : Word := BitVec.ofNat 32 (w % 2 ^ nbits)
  match tableRows.find? (fun r => r.2.1 == v && maskBits r.1 == nbits) with
  | some r => r.2.2
  | none =>
    match tableRows.find? (fun r => r.2.1 == v) with
    | some r => r.2.2
    | none => .prgEth0 0xFFFFFFFF v

/-- The operation the decoder reads from a table word. -/
def decodeTableWord (nbits w : Nat) : Option Instr :=
  match decode (OpWord.ofTable nbits w) with
  | .ok i => some i
  | .error _ => none

end Sys2Proof
end

