-- ==== Sys2Proof/Machine/State.lean ====
section
/-! DEFINITION. The state of the block and of its host (10_state.md), the reasons a step can stop,
and the machine at power-on (R32, R43, R141). -/

namespace Sys2Proof.Machine

/-- The agents that issue operations (00_scope.md R6, 60_exceptions.md R137). -/
inductive Agent where
  | host | datapath
deriving DecidableEq, Repr, Inhabited

/-- The clock-chain handle (R37). -/
inductive Chain where
  | none
  | built (count : Nat)
deriving DecidableEq, Repr

/-- Whether the timing-adjustment clock is there (R34). -/
inductive AdjClk where
  | absent | present
deriving DecidableEq, Repr

/-- The clocks an error can name (R127). -/
inductive ClockName where
  | parent0 | parent1 | adjustment | rgmiiTx
deriving DecidableEq, Repr

/-- The two variants of ClockAcquisitionFailed (R127; D38). -/
inductive Acquisition where
  | transient | permanent
deriving DecidableEq, Repr

/-- The error kinds with the information each carries (R127). They are raised by host operations
and are next states, not stops. -/
inductive ErrKind where
  | invalidPhyMode (mode : PhyMode)
  | invalidDelayValue (rx : Word)
  | missingMandatoryClock (clock : ClockName)
  | clockAcquisitionFailed (variant : Acquisition) (clock : ClockName)
  | clockRegistrationFailed (node : Node)
  | rateSetFailed
  | clockEnableFailed (clock : ClockName)
deriving DecidableEq, Repr

/-- The procedure a raise names (R40, R129). The first five are R129's; the last three name an
operation that HOST issued by itself (log 15). -/
inductive Stage where
  | validate | acquireAdj | chainBuild | phymodeApply | timingApply
  | clkSetRate | clkEnable | adjEnable
deriving DecidableEq, Repr

/-- The outcome of the configuration sequence (R40). -/
inductive RunResult where
  | idle | running | programmed
  | failed (kind : ErrKind) (stage : Stage)
deriving DecidableEq, Repr

/-- The device description HOST reads (R119): the mode string; whether the selector names a family, and
then it is FAMILY, which the description supplies (R3; log 21); and the delays, `none` where the
description gives none. -/
structure Description where
  mode : String
  namesFamily : Bool
  txDelay : Option Word
  rxDelay : Option Word
deriving DecidableEq, Repr

/-- The configuration (R13, R39). -/
structure Cfg where
  mode : PhyMode
  family : Family
  txDelay : Word
  rxDelay : Word
  adjClk : AdjClk
deriving DecidableEq, Repr

/-- What the adjustment-clock check reads: `ADJ_CHECK_ON` (R7, R113; D14). -/
inductive AdjCheckOn where
  | combined | rxConfig
deriving DecidableEq, Repr

/-- The two readings of `DELAY_WRITE_MASK` (R7, R114; D13): the delay write clears the calibration
fields, or leaves them alone. -/
inductive DelayMask where
  | clearsCalibration | leavesCalibration
deriving DecidableEq, Repr

/-- The parameters of a block instance (R7). No operation changes them. -/
structure Params where
  family : Family
  base : Nat
  adjCheckOn : AdjCheckOn
  delayMask : DelayMask
deriving DecidableEq, Repr

/-- The direction of a bus transaction (R61). -/
inductive Dir where
  | read | write
deriving DecidableEq, Repr

/-- A bus transaction as it was issued: by whom, which way, at which byte offset, and the data that
was read or written (R61, R80). -/
structure Txn where
  agent : Agent
  dir : Dir
  off : Nat
  data : Word
deriving DecidableEq, Repr

/-- What another agent does at one place between two transactions: another master writes a word to
PRG_ETH0, or DATAPATH makes one move of a request (R54, R55). -/
inductive Intrusion where
  | write (v : Word)
  | datapath
deriving DecidableEq, Repr

/-- Who is next: HOST with an operation, DATAPATH with a whole request, or another agent with one
transaction of its own between two operations (R54, R55; log 17). -/
inductive Turn where
  | host
  | datapath
  | other (x : Intrusion)
deriving DecidableEq, Repr

/-- What is left of a rate set that DATAPATH has under way: a CLK.SET_PARENT or CLK.SET_DIV still to
come, which may be skipped where the field holds its value, or one that has been read and is to be
written (R50, R98). -/
inductive DpMove where
  | setSel (sel skip : Bool)
  | setDiv (div : Nat) (skip : Bool)
  | writeSel (sel : Bool)
  | writeDiv (div : Nat)
deriving DecidableEq, Repr

/-- The environment (R9; D16): for each kind of draw a script of answers and how many were drawn.
The k-th draw is the script's k-th answer, and past the script's end a free value of Config, so a
claim about every state is a claim about every answer (log 7). `gaps` holds what the other agents do
before the coming transactions of masked writes, one list for each gap, nothing past the end (R54,
R55; log 8, 9). -/
structure Env where
  fails : List Bool
  nFail : Nat
  lookups : List Lookup
  nLookup : Nat
  adjs : List AdjLookup
  nAdj : Nat
  words : List Word
  nWord : Nat
  rates : List RateChoice
  nRate : Nat
  parents : List (Bool × Bool)
  nParents : Nat
  gaps : List (List Intrusion)
  nGap : Nat
deriving DecidableEq, Repr

/-- The state. Every field but those marked as the model's own is named by a rule of spec/
(INVENTORY.md lists them). -/
structure State where
  /-- FAMILY, BASE, ADJ_CHECK_ON, DELAY_WRITE_MASK (R7). -/
  params : Params
  /-- PRG_ETH0 (R14 to R30). -/
  reg0 : Word
  /-- PRG_ETH1 (R31): its content is opaque. -/
  reg1 : Word
  /-- Frequency of parent clock 0, in Hz (R33). -/
  p0 : Rat
  /-- Frequency of parent clock 1, in Hz (R33). -/
  p1 : Rat
  /-- `parent_running[0]` (R88, R101, R102). -/
  run0 : Bool
  /-- `parent_running[1]` (R88, R101, R102). -/
  run1 : Bool
  /-- `adj_enabled` (R34). -/
  adjEnabled : Bool
  /-- The clock-chain handle (R37). -/
  chain : Chain
  /-- The stages registered so far (R38, R87, R132). -/
  stages : List Node
  /-- The handle of parent clock 0 is held (R87, R132). -/
  par0Held : Bool
  /-- The handle of parent clock 1 is held (R87, R132). -/
  par1Held : Bool
  /-- The handle of the adjustment clock is held (R121, R132). -/
  adjHeld : Bool
  /-- The device description (R119). -/
  desc : Description
  /-- The configuration, once acquired (R39). -/
  cfg : Option Cfg
  /-- The outcome of the configuration sequence (R40). -/
  result : RunResult
  /-- HOST's position in its operation list (R42). -/
  pos : Nat
  /-- A raise has stopped HOST's list (R42, R131). -/
  stopped : Bool
  /-- The host temporary `t` (R81). -/
  t : Word
  /-- The result of HOST's last rate query, in Hz (R93, R95). -/
  rate : Rat
  /-- DATAPATH's own temporary (R93, R134). -/
  dpT : Word
  /-- The result of DATAPATH's last rate query, in Hz (R93, R95). -/
  dpRate : Rat
  /-- The error returned to DATAPATH by its last request (R140). -/
  dpError : Option ErrKind
  /-- HOST's operation list (R42, R80). -/
  hostProg : List OpWord
  /-- DATAPATH's pending requests, oldest first (R103). -/
  dpQueue : List OpWord
  /-- What is left of the rate set DATAPATH has under way (R55, R98). -/
  dpJob : List DpMove
  /-- The model's own: the agent that issues the current operation. -/
  agent : Agent
  /-- The model's own: who is next; HOST when empty (log 17). -/
  sched : List Turn
  /-- The model's own: the bus transactions issued so far, oldest first. -/
  txns : List Txn
  /-- The model's own: the environment's draws. -/
  env : Env
deriving DecidableEq, Repr

/-- The block raises no exception and no access faults (R128), so there is no fault. -/
inductive Fault where
deriving DecidableEq, Repr

/-- Why an operation gets no step. Every one is safe: no claim holds of a refused run. -/
inductive Refusal where
  /-- An operation without a meaning in this model; raised by `exec`. Safe. -/
  | notModelled (mnemonic : String)
  /-- WR.ETH1, or the write half of MW at offset 0x4 (R84, R85). Safe. -/
  | wrEth1OutOfScope
  /-- An access at an offset other than 0x0 and 0x4 (R47), by MW. Safe. -/
  | badOffset (off : Nat)
  /-- A clock operation with no chain built (R93 to R104, R109). Safe. -/
  | noChain
  /-- A rate request of 0 Hz (R95, R98). Safe. -/
  | rateZero
  /-- A clock operation on a node it does not take (R79). Safe. -/
  | wrongNode (node : Node)
  /-- CLK.SET_PARENT with an index other than 0 and 1 (R96). Safe. -/
  | badParent (i : Nat)
  /-- CLK.SET_DIV with a divisor outside the table (R97). Safe. -/
  | badDivisor (d : Nat)
  /-- CLK.DISABLE with no enable outstanding (R102). Safe. -/
  | noEnableOutstanding
  /-- TIMING.APPLY with an rx delay other than 0 and 2 (R111). Safe. -/
  | rxDelayOutside (rx : Word)
  /-- PHYMODE.APPLY or TIMING.APPLY with no configuration held (R105, R109; log 25). Safe. -/
  | noConfiguration
  /-- A description whose selector names neither family (R119). Safe. -/
  | unknownFamily
  /-- ORCH.INIT while the result is not idle (R122). Safe. -/
  | notIdle
  /-- ORCH.RELEASE while the result is neither Programmed nor Failed (R132). Safe. -/
  | notFinished
  /-- An operation DATAPATH may not issue, or not yet (R134). Safe. -/
  | agentForbidden
  /-- A field row of the other family (R15, R75; log 11). Safe. -/
  | fieldOfOtherFamily
  /-- An operation word that decodes to nothing; raised by `step` (R46, R47, R76, R79). Safe. -/
  | undecodable (e : DecodeError)
  /-- HOST's list has no operation at `pos`; raised by `step` (R42). Safe. -/
  | endOfList
  /-- A raise has stopped HOST's list; raised by `step` (R42, R131). Safe. -/
  | listStopped
deriving DecidableEq, Repr

/-- No script: every draw is a free value, and no other master writes. -/
def Env.free : Env where
  fails := []
  nFail := 0
  lookups := []
  nLookup := 0
  adjs := []
  nAdj := 0
  words := []
  nWord := 0
  rates := []
  nRate := 0
  parents := []
  nParents := 0
  gaps := []
  nGap := 0

/-- The parameters of the instance `State.reset` describes: DESIGN CHOICE for FAMILY and BASE
(log 3), R7's decided values for the others. -/
def Params.default : Params where
  family := .extMode
  base := 0
  adjCheckOn := .combined
  delayMask := .clearsCalibration

/-- The description `State.reset` holds: DESIGN CHOICE (log 4), with both delays left to their
defaults (R119). -/
def Description.default : Description where
  mode := "rgmii"
  namesFamily := true
  txDelay := none
  rxDelay := none

/-- The machine at power-on, for any parameters and any open value (R32, R33, R43, R88, R141). A
power-down and up takes it there again, with its own RESET0 and RESET1 (R139). -/
def State.powerOn (params : Params) (reset0 reset1 : Word) (p0 p1 : Rat) (run0 run1 : Bool)
    (desc : Description) (env : Env) : State where
  params := params
  reg0 := reset0
  reg1 := reset1
  p0 := p0
  p1 := p1
  run0 := run0
  run1 := run1
  adjEnabled := false
  chain := .none
  stages := []
  par0Held := false
  par1Held := false
  adjHeld := false
  desc := desc
  cfg := none
  result := .idle
  pos := 0
  stopped := false
  t := 0
  rate := 0
  dpT := 0
  dpRate := 0
  dpError := none
  hostProg := []
  dpQueue := []
  dpJob := []
  agent := .host
  sched := []
  txns := []
  env := env

/-- The machine right after power-on. RESET0, RESET1, P0, P1 and the running of the parents are
open in the spec; the values here are DESIGN CHOICEs (log 1, 2, 6) that no claim may rest on. -/
def State.reset : State :=
  State.powerOn Params.default 0 0 1000000000 1000000000 false false Description.default Env.free

end Sys2Proof.Machine
end

