-- ==== Sys2Proof/Machine/Flags.lean ====
section
/-! DEFINITION. The block has no status flags or condition codes (10_state.md R41), so no operation
computes one. What stands here is the reading of the one-bit controls of PRG_ETH0 (30_encoding.md
R68, R71) and of the divider's raw value, which is all the "flag" reading other files need. -/

namespace Sys2Proof.Machine

/-- CLK_M250_SEL, bit 4: true selects parent clock 1 (R21, R68). -/
def selBit (w : Word) : Bool := w.getLsbD 4

/-- CLK_M250_DIV, bits [9:7], raw (R23, R70). -/
def divRaw (w : Word) : Nat := (fieldGet divM 7 w).toNat

/-- RGMII_TX_CLK_EN, bit 10 (R24). -/
def gateBit (w : Word) : Bool := w.getLsbD 10

/-- INVERTED_RMII_CLK, bit 11 (R25). -/
def invBit (w : Word) : Bool := w.getLsbD 11

/-- TX_AND_PHY_REF_CLK, bit 12 (R26). -/
def refBit (w : Word) : Bool := w.getLsbD 12

/-- ADJ_ENABLE, bit 13 (R27). -/
def adjEnBit (w : Word) : Bool := w.getLsbD 13

/-- ADJ_SETUP, bit 14 (R28). -/
def adjSetupBit (w : Word) : Bool := w.getLsbD 14

end Sys2Proof.Machine
end

