-- ==== Sys2Proof/Machine/Operands.lean ====
section
/-! DEFINITION. Operand forms and the values computed from them: nodes and their descriptors, the
divider, rates, the mode and delay encodings. -/

namespace Sys2Proof.Machine

/-! ## The masked merge -/

/-- The value MW writes over the word `t` it has read (R85). -/
def merge (t mask value : Word) : Word := (t &&& ~~~mask) ||| (value &&& mask)

/-! ## Nodes (R38, R86) -/

/-- What feeds a node: another node, or the parent clock that CLK_M250_SEL selects (R38). -/
inductive NodeInput where
  | parentClocks
  | node (n : Node)
deriving DecidableEq, Repr

/-- The PRG_ETH0 field a stage is bound to; `fixed_div2` is bound to no register (R38, R86). -/
def nodeMask : Node → Option Word
  | .m250Sel => some selM
  | .m250Div => some divM
  | .fixedDiv2 => none
  | .rgmiiTxEn => some gateM

/-- The parent link of a stage (R38). -/
def nodeInput : Node → NodeInput
  | .m250Sel => .parentClocks
  | .m250Div => .node .m250Sel
  | .fixedDiv2 => .node .m250Div
  | .rgmiiTxEn => .node .fixedDiv2

/-- The four stages in dependency order (R86, R87). -/
def allStages : List Node := [.m250Sel, .m250Div, .fixedDiv2, .rgmiiTxEn]

/-! ## The divider (R89, R94) -/

/-- The divisor the silicon applies for a raw field value (R89). -/
def hwDiv (v : Nat) : Nat := if v ∈ Config.divisors then v else Config.divLowHw

/-- The divisor the host's rate computation uses for a raw field value (R89). -/
def swDiv (v : Nat) : Nat := if v ∈ Config.divisors then v else 1

/-- The distance of two frequencies, exact (R94). -/
def rateGap (a b : Rat) : Rat := if a ≤ b then b - a else a - b

/-- One comparison of the search below: the larger divisor wins a tie (R94; D12). -/
def closer (P T : Rat) (best d : Nat) : Nat :=
  if rateGap (P / (d : Rat)) T ≤ rateGap (P / (best : Rat)) T then d else best

/-- `RoundClosest`: the divisor of the table whose rate is closest to the target, the larger one on
a tie (R94). -/
def roundClosest (P T : Rat) : Nat := [3, 4, 5, 6, 7].foldl (closer P T) 2

/-- The rate of a node under an input rate `P` and a divisor `d` (R90 to R93). -/
def nodeRate (P : Rat) (d : Nat) : Node → Rat
  | .m250Sel => P
  | .m250Div => P / (d : Rat)
  | .fixedDiv2 => P / (d : Rat) / 2
  | .rgmiiTxEn => P / (d : Rat) / 2

/-- What `m250_div` is asked for when a node is asked for `hz` (R95, R98): twice as much below the
halving stage. For `m250_sel` the divisor does not enter the rate (log 22). -/
def dividerTarget (hz : Nat) : Node → Rat
  | .m250Sel => 2 * (hz : Rat)
  | .m250Div => (hz : Rat)
  | .fixedDiv2 => 2 * (hz : Rat)
  | .rgmiiTxEn => 2 * (hz : Rat)

/-- A parent's rate after a rate request: a positive answer changes it, anything else does not
(R99; log 23). -/
def newRate (old : Rat) : Option Rat → Rat
  | some f => if 0 < f then f else old
  | none => old

/-- The field value of a mux index (R96). -/
def selField (i : Nat) : Word := fieldPrep selM 4 (BitVec.ofNat 32 i)

/-- The field value of a divisor (R97). -/
def divField (d : Nat) : Word := fieldPrep divM 7 (BitVec.ofNat 32 d)

/-! ## Mode and delays (R106, R107, R110 to R114) -/

/-- `ModeLegacy` (R106): the (mask, value) pair, or none where it raises. -/
def modeLegacy : PhyMode → Option (Word × Word)
  | .rgmii | .rgmiiRxid | .rgmiiId | .rgmiiTxid => some (rgmiiModeM, 0x00000001)
  | .rmii => some (rgmiiModeM, 0x00000000)
  | .other _ => none

/-- `ModeExt` (R107): the (mask, value) pair, or none where it raises. -/
def modeExt : PhyMode → Option (Word × Word)
  | .rgmii | .rgmiiRxid | .rgmiiId | .rgmiiTxid => some (extPhyModeM, 0x00000001)
  | .rmii => some (extPhyModeM, 0x00000004)
  | .other _ => none

/-- The (mask, value) pair PHYMODE.APPLY writes (R105). -/
def modePair : Family → PhyMode → Option (Word × Word)
  | .legacy, m => modeLegacy m
  | .extMode, m => modeExt m

/-- `TxField`: truncated to two bits of 2 ns steps, never rejected (R69, R110). -/
def txField (tx : Word) : Word := fieldPrep txdlyM 5 (tx >>> 1)

/-- `RxField`: defined for 0 and 2 only (R72, R111). -/
def rxField (rx : Word) : Option Word :=
  if rx = 2 then some (adjEnM ||| adjSetupM)
  else if rx = 0 then some 0
  else none

/-- `Combine`: the delay value of a mode, or none where it raises (R112). -/
def combine (txf rxf : Word) : PhyMode → Option Word
  | .rgmii => some (txf ||| rxf)
  | .rgmiiRxid => some txf
  | .rgmiiTxid => some rxf
  | .rgmiiId => some 0
  | .rmii => some 0
  | .other _ => none

/-- `DELAY_WRITE_MASK` under either reading (R114). -/
def DelayMask.word : DelayMask → Word
  | .clearsCalibration => txdlyM ||| adjEnM ||| adjSetupM ||| adjDelayM ||| adjSkewM
  | .leavesCalibration => txdlyM ||| adjEnM ||| adjSetupM

/-- What the adjustment-clock check reads (R113). -/
def AdjCheckOn.probe (dc rxf : Word) : AdjCheckOn → Word
  | .combined => dc
  | .rxConfig => rxf

/-- The mode strings HOST knows: each of the five names as the spec writes it, and in lower case with
`_` or `-` (R12, R119; the spelling is log 28's). -/
def modeNames : List (String × PhyMode) :=
  [("RGMII", .rgmii), ("rgmii", .rgmii),
   ("RGMII_RXID", .rgmiiRxid), ("rgmii_rxid", .rgmiiRxid), ("rgmii-rxid", .rgmiiRxid),
   ("RGMII_ID", .rgmiiId), ("rgmii_id", .rgmiiId), ("rgmii-id", .rgmiiId),
   ("RGMII_TXID", .rgmiiTxid), ("rgmii_txid", .rgmiiTxid), ("rgmii-txid", .rgmiiTxid),
   ("RMII", .rmii), ("rmii", .rmii)]

/-- The mode a mode string names; any other string gives `Other` (R119; D24). -/
def phyModeOf (text : String) : PhyMode :=
  match modeNames.find? (fun n => n.1 == text) with
  | some n => n.2
  | none => .other text

/-- The modes of the RGMII family (R12). -/
def isRgmiiFamily : PhyMode → Bool
  | .rgmii | .rgmiiRxid | .rgmiiId | .rgmiiTxid => true
  | .rmii | .other _ => false

end Sys2Proof.Machine
end

