-- ==== Sys2Proof/Machine/Ops.lean ====
section
/-! DEFINITION. The shared operations: the environment's draws, the bus, what a raise does and
what ends a run, the agents' rights, and the chain handle. -/

namespace Sys2Proof.Machine

/-! ## Draws (00_scope.md R9; D16) -/

/-- The k-th coming answer to "does it fail?". -/
def Env.failAt (e : Env) (k : Nat) : Bool :=
  (e.fails[e.nFail + k]?).getD (Config.freeFail (e.nFail + k))

/-- The k-th coming answer to a parent lookup. -/
def Env.lookupAt (e : Env) (k : Nat) : Lookup :=
  (e.lookups[e.nLookup + k]?).getD (Config.freeLookup (e.nLookup + k))

/-- The coming answer to the adjustment-clock lookup. -/
def Env.adjNow (e : Env) : AdjLookup := (e.adjs[e.nAdj]?).getD (Config.freeAdj e.nAdj)

/-- The value the coming read of PRG_ETH1 gives. -/
def Env.wordNow (e : Env) : Word := (e.words[e.nWord]?).getD (Config.freeWord e.nWord)

/-- The coming choice inside a rate request. -/
def Env.rateNow (e : Env) : RateChoice := (e.rates[e.nRate]?).getD (Config.freeRate e.nRate)

/-- Whether the parents go on running after the coming gating off. -/
def Env.parentsNow (e : Env) : Bool × Bool :=
  (e.parents[e.nParents]?).getD (Config.freeParents e.nParents)

/-- What the other agents do at the k-th coming gap between transactions (R54, R55); nothing once the
script is used up (log 8). -/
def Env.gapAt (e : Env) (k : Nat) : List Intrusion := (e.gaps[e.nGap + k]?).getD []

/-- One failure answer has been drawn. -/
def State.popFail (s : State) : State := { s with env := { s.env with nFail := s.env.nFail + 1 } }

/-- One parent-lookup answer has been drawn. -/
def State.popLookup (s : State) : State :=
  { s with env := { s.env with nLookup := s.env.nLookup + 1 } }

/-- One adjustment-lookup answer has been drawn. -/
def State.popAdj (s : State) : State := { s with env := { s.env with nAdj := s.env.nAdj + 1 } }

/-- One PRG_ETH1 value has been drawn. -/
def State.popWord (s : State) : State := { s with env := { s.env with nWord := s.env.nWord + 1 } }

/-- One rate choice has been drawn. -/
def State.popRate (s : State) : State := { s with env := { s.env with nRate := s.env.nRate + 1 } }

/-- The parents are no longer held running: whether each goes on is a draw (R88, R102). -/
def State.releaseParents (s : State) : State :=
  { s with
    run0 := s.env.parentsNow.1
    run1 := s.env.parentsNow.2
    env := { s.env with nParents := s.env.nParents + 1 } }

/-! ## The bus (20_memory.md, 40_bus_access.md) -/

/-- The bus address of the register at offset `off` (R44). -/
def State.regAddr (s : State) (off : Nat) : Nat := s.params.base + off

/-- The byte of the window at bus address `a`, little-endian; none outside the window (R44, R45). -/
def State.byteAt (s : State) (a : Nat) : Option Byte :=
  if a < s.regAddr 0 then none
  else if a < s.regAddr 4 then some ((s.reg0 >>> (8 * (a - s.regAddr 0))).setWidth 8)
  else if a < s.regAddr 8 then some ((s.reg1 >>> (8 * (a - s.regAddr 4))).setWidth 8)
  else none

/-- The issuing agent's temporary takes the value a bus read returned (R81, R93). -/
def State.setT (s : State) (v : Word) : State :=
  { s with
    t := if s.agent = .host then v else s.t
    dpT := if s.agent = .host then s.dpT else v }

/-- The issuing agent's rate query result (R93, R95). -/
def State.setRate (s : State) (f : Rat) : State :=
  { s with
    rate := if s.agent = .host then f else s.rate
    dpRate := if s.agent = .host then s.dpRate else f }

/-- The log of bus transactions grows by one (R80; log 30). -/
def State.logTxn (s : State) (dir : Dir) (off : Nat) (data : Word) : State :=
  { s with txns := s.txns ++ [⟨s.agent, dir, off, data⟩] }

/-- Reading PRG_ETH0: no side effect on the block (R48, R81). -/
def State.readEth0 (s : State) : State := (s.setT s.reg0).logTxn .read 0 s.reg0

/-- Writing PRG_ETH0: all 32 bits at once (R49, R82). -/
def State.writeEth0 (s : State) (v : Word) : State :=
  { s.logTxn .write 0 v with reg0 := v }

/-- Reading PRG_ETH1: the content is opaque, so the value is a draw (R83). -/
def State.readEth1 (s : State) : State :=
  ((s.setT s.env.wordNow).logTxn .read 4 s.env.wordNow).popWord

/-! ## Raising an error, completing, and the end of a run (60_exceptions.md R129, R131) -/

/-- What an operation comes to: it is done, it raises an error kind in a stage, or it is refused. -/
inductive Res where
  | done (s : State)
  | raised (kind : ErrKind) (stage : Stage) (s : State)
  | refused (r : Refusal)
deriving DecidableEq, Repr

/-- The next sub-operation runs only where the one before is done (fail-fast, R123, R131). -/
def Res.andThen (r : Res) (f : State → Res) : Res :=
  match r with
  | .done s => f s
  | .raised k g s => .raised k g s
  | .refused e => .refused e

/-- A raise inside a procedure is reported with the procedure's name (R129). -/
def Res.inStage (g : Stage) (r : Res) : Res :=
  match r with
  | .done s => .done s
  | .raised k _ s => .raised k g s
  | .refused e => .refused e

/-- What a raise does, the block's only "trap entry" (R131): every transaction before it stays,
`pos` is not advanced, and HOST's list stops with `Failed(kind, stage)`. A raise in a request of
DATAPATH goes to DATAPATH only (R140). -/
def State.takeRaise (s : State) (kind : ErrKind) (stage : Stage) : State :=
  { s with
    result := if s.agent = .host then .failed kind stage else s.result
    stopped := if s.agent = .host then true else s.stopped
    dpError := if s.agent = .host then s.dpError else some kind }

/-- An operation completes: HOST's position advances by one (R42), and a request of DATAPATH
reports no error. -/
def State.complete (s : State) : State :=
  { s with
    pos := if s.agent = .host then s.pos + 1 else s.pos
    dpError := if s.agent = .host then s.dpError else none }

/-- The end of the release: the run is idle again and the list starts over (R132). -/
def State.backToIdle (s : State) : State :=
  { s with result := .idle, pos := 0, stopped := false }

/-- The outcome of an operation. -/
def Res.settle : Res → Host.Outcome State Fault Refusal
  | .done s => .next s.complete
  | .raised k g s => .next (s.takeRaise k g)
  | .refused r => .refused r

/-! ## The agents' rights (60_exceptions.md R134) -/

/-- An operation that is open to HOST only (R134). -/
def hostOnly (s : State) (op : State → Res) : Host.Outcome State Fault Refusal :=
  match s.agent with
  | .host => (op s).settle
  | .datapath => .refused .agentForbidden

/-- A rate operation: open to HOST, and to DATAPATH on `rgmii_tx_en` once the result is Programmed
(R103, R134, R144). DESIGN CHOICE (log 39): the result as it stands counts, so DATAPATH is refused
where a later raise of HOST has made it Failed. -/
def rateRequest (s : State) (node : Node) (op : State → Res) : Host.Outcome State Fault Refusal :=
  match s.agent with
  | .host => (op s).settle
  | .datapath =>
    if node = .rgmiiTxEn ∧ s.result = .programmed then (op s).settle
    else .refused .agentForbidden

/-! ## The chain handle (R37) -/

/-- A clock operation needs the chain's handle; it is given the enable count (R93 to R104). -/
def withChain (s : State) (op : Nat → Res) : Res :=
  match s.chain with
  | .none => .refused .noChain
  | .built n => op n

/-- The chain's enable count is positive (R88, R101). -/
def Chain.enabled : Chain → Bool
  | .none => false
  | .built n => 0 < n

/-- The adjustment clock, as the configuration fixes it; absent while none is held (R34). -/
def State.adjClk (s : State) : AdjClk :=
  match s.cfg with
  | some c => c.adjClk
  | none => .absent

end Sys2Proof.Machine
end

