-- ==== Sys2Proof/Machine/Rate.lean ====
section
/-! DEFINITION. Rate queries and the outcomes of a rate request (41_clock_chain.md R93, R95, R98 to
R100), for HOST and DATAPATH alike: nothing here writes a register. -/

namespace Sys2Proof.Machine

/-- The rate of parent clock 0 or 1 (R33). -/
def State.parentRate (s : State) (sel : Bool) : Rat := if sel then s.p1 else s.p0

/-- The rate the host's query reports for a node, from the word it has read (R93). It ignores the
gate and whether the parents run (D37). -/
def reportedRate (s : State) (w : Word) (node : Node) : Rat :=
  nodeRate (s.parentRate (selBit w)) (swDiv (divRaw w)) node

/-- CLK.GET_RATE (R93): one side-effect free read of PRG_ETH0. -/
def getRate (node : Node) (s : State) : Res :=
  withChain s (fun _ => .done (s.readEth0.setRate (reportedRate s s.reg0 node)))

/-- Where a rate request ends: the select, the parent rates and the divisor (R98). -/
structure RateOutcome where
  sel : Bool
  p0 : Rat
  p1 : Rat
  div : Nat
deriving DecidableEq, Repr

/-- The rate of the selected parent where a rate request ends (R98). -/
def RateOutcome.parent (o : RateOutcome) : Rat := if o.sel then o.p1 else o.p0

/-- The member of `Outcomes` that a choice names (R98): the divisor is free, but where the select
and the selected parent's rate are unchanged it is `RoundClosest`. -/
def rateOutcome (s : State) (target : Rat) (c : RateChoice) : RateOutcome where
  sel := c.sel
  p0 := newRate s.p0 c.newP0
  p1 := newRate s.p1 c.newP1
  div :=
    let p := if c.sel then newRate s.p1 c.newP1 else newRate s.p0 c.newP0
    if c.sel = selBit s.reg0 ∧ p = s.parentRate c.sel then roundClosest p target
    else c.divLess2.val + 2

/-- CLK.ROUND_RATE (R95): the rate of the node under a drawn outcome; nothing else changes. -/
def roundRate (node : Node) (hz : Nat) (s : State) : Res :=
  withChain s (fun _ =>
    if hz = 0 then .refused .rateZero
    else
      let o := rateOutcome s (dividerTarget hz node) s.env.rateNow
      .done (s.popRate.setRate (nodeRate o.parent o.div node)))

/-- The choice of the reference resolver (R100): the select and the parents are kept, and exactly
one CLK.SET_DIV is performed. -/
def referenceChoice (w : Word) : RateChoice where
  sel := selBit w
  newP0 := none
  newP1 := none
  divLess2 := 0
  divFirst := false
  skipSel := true
  skipDiv := false

end Sys2Proof.Machine
end

