-- ==== Sys2Proof/Machine/Interleave.lean ====
section
/-! DEFINITION. The transactions of several agents interleaved (20_memory.md R50, R53 to R55): a rate
request of DATAPATH one transaction at a time, what another agent does at one place, and the masked
write of R85, between whose transactions the others may act. -/

namespace Sys2Proof.Machine

/-! ## A rate request of DATAPATH, one transaction at a time (R55, R98, R103) -/

/-- An operation runs as DATAPATH's; then it is the other agent's turn again. -/
def State.asDatapath (op : State → State) (s : State) : State :=
  { op { s with agent := .datapath } with agent := s.agent }

/-- The writes of a rate set, still to come, in the order the choice gives (R98). -/
def rateMoves (o : RateOutcome) (c : RateChoice) : List DpMove :=
  if c.divFirst then [.setDiv o.div c.skipDiv, .setSel o.sel c.skipSel]
  else [.setSel o.sel c.skipSel, .setDiv o.div c.skipDiv]

/-- The beginning of DATAPATH's CLK.SET_RATE: the one place where it can fail (R98); the parents may
change rate (R99), and its writes are put in line. -/
def beginRate (hz : Nat) (s : State) : Res :=
  withChain s (fun _ =>
    if hz = 0 then .refused .rateZero
    else if s.env.failAt 0 then .raised .rateSetFailed .clkSetRate s.popFail
    else
      let o := rateOutcome s (dividerTarget hz .rgmiiTxEn) s.env.rateNow
      .done { s.popFail.popRate with
        p0 := o.p0
        p1 := o.p1
        dpJob := rateMoves o s.env.rateNow })

/-- The first part of a request of DATAPATH: all of a rate query, the beginning of a rate set; any
other operation is refused (R103, R134). -/
def beginRequest (w : OpWord) (s : State) : Res :=
  match decode w with
  | .ok (.clkGetRate .rgmiiTxEn) => getRate .rgmiiTxEn s
  | .ok (.clkRoundRate .rgmiiTxEn hz) => roundRate .rgmiiTxEn hz s
  | .ok (.clkSetRate .rgmiiTxEn hz) => beginRate hz s
  | .ok _ => .refused .agentForbidden
  | .error e => .refused (.undecodable e)

/-- DATAPATH begins its oldest request, once the result is Programmed (R103, R144): as it stands, also
here (log 39). A request that is refused stays where it is. -/
def State.dpBegin (s : State) : State :=
  match s.dpQueue, s.result with
  | w :: rest, .programmed =>
    match beginRequest w { s with dpQueue := rest } with
    | .done u => u.complete
    | .raised k g u => u.takeRaise k g
    | .refused _ => s
  | _, _ => s

/-- The field a move is about: each stage protects its own (R55). -/
def DpMove.mask : DpMove → Word
  | .setSel _ _ => selM
  | .writeSel _ => selM
  | .setDiv _ _ => divM
  | .writeDiv _ => divM

/-- The move is a write that may be skipped, and the field holds its value (R98). -/
def State.dpSkips (s : State) : DpMove → Bool
  | .setSel sel skip => skip && selBit s.reg0 == sel
  | .setDiv d skip => skip && divRaw s.reg0 == d
  | .writeSel _ => false
  | .writeDiv _ => false

/-- One move of a rate set under way, `rest` being what comes after it: a read, or the write of what
was read with the field replaced (R50, R96, R97); a write that may be skipped is, where the field
holds its value (R98). -/
def State.dpRun (s : State) (m : DpMove) (rest : List DpMove) : State :=
  match m with
  | .setSel sel skip =>
    if s.dpSkips (.setSel sel skip) then { s with dpJob := rest }
    else { s.readEth0 with dpJob := .writeSel sel :: rest }
  | .setDiv d skip =>
    if s.dpSkips (.setDiv d skip) then { s with dpJob := rest }
    else { s.readEth0 with dpJob := .writeDiv d :: rest }
  | .writeSel sel => { s.writeEth0 (merge s.dpT selM (selField sel.toNat)) with dpJob := rest }
  | .writeDiv d => { s.writeEth0 (merge s.dpT divM (divField d)) with dpJob := rest }

/-- One move of DATAPATH: it goes on with the rate set under way, or begins its oldest request. -/
def State.dpMove (s : State) : State :=
  match s.dpJob with
  | [] => s.dpBegin
  | m :: rest => s.dpRun m rest

/-! ## What another agent does at one place (R54, R55) -/

/-- DATAPATH's next move is a transaction on the field that a rate request of another agent holds. -/
def State.dpWaits (s : State) (held : Word) : Bool :=
  match s.dpJob with
  | [] => false
  | m :: _ => m.mask == held && !s.dpSkips m

/-- What an intrusion does while the agent at work holds the field `held` (0: none): another master's
write lands whole (R49, R54); DATAPATH makes one move, unless it is itself the agent at work or has to
wait for the field (R55). -/
def State.intrude (held : Word) (s : State) : Intrusion → State
  | .write v => { s with reg0 := v }
  | .datapath =>
    if s.agent = .datapath ∨ s.dpWaits held = true then s else s.asDatapath State.dpMove

/-- The coming place between two transactions: all that the other agents do there (R54; log 8, 9). -/
def State.gap (held : Word) (s : State) : State :=
  (s.env.gapAt 0).foldl (State.intrude held)
    { s with env := { s.env with nGap := s.env.nGap + 1 } }

/-- A rate request about to read waits for DATAPATH's write where DATAPATH has read for the same field
(R55). What else happens while it waits is in the gap before, DATAPATH's write with it. -/
def State.yieldField (held : Word) (s : State) : State :=
  match s.dpJob with
  | .writeSel sel :: rest =>
    if held = selM then s.asDatapath (fun u => u.dpRun (.writeSel sel) rest) else s
  | .writeDiv d :: rest =>
    if held = divM then s.asDatapath (fun u => u.dpRun (.writeDiv d) rest) else s
  | _ => s

/-! ## The masked write (R85) -/

/-- `MW #0x0, #mask, #value`: one read, then one write of the merged word, other agents between and
before (R50, R54). A rate request holds the field it writes from its read to its write (R55). -/
def State.mwHeld (held mask value : Word) (s : State) : State :=
  let u := (s.gap 0).yieldField held
  (u.readEth0.gap held).writeEth0 (merge u.reg0 mask value)

/-- The masked write of an operation that is no rate request: it holds no field (R50, R54). -/
def State.mwEth0 (s : State) (mask value : Word) : State := s.mwHeld 0 mask value

end Sys2Proof.Machine
end

