-- ==== Sys2Proof/Machine/Bus.lean ====
section
/-! DEFINITION. The bus access family (40_bus_access.md R81 to R85). -/

namespace Sys2Proof.Machine

/-- RD.ETH0 (R81). -/
def execRdEth0 (s : State) : Host.Outcome State Fault Refusal :=
  hostOnly s (fun s => .done s.readEth0)

/-- WR.ETH0 #v (R82): reserved encodings are stored like any other (R74). -/
def execWrEth0 (v : Word) (s : State) : Host.Outcome State Fault Refusal :=
  hostOnly s (fun s => .done (s.writeEth0 v))

/-- RD.ETH1 (R83): the value is a draw and the read changes no register. -/
def execRdEth1 (s : State) : Host.Outcome State Fault Refusal :=
  hostOnly s (fun s => .done s.readEth1)

/-- WR.ETH1 #v (R84): the spec gives the write no meaning and refuses it. DESIGN CHOICE (log 25):
issued by DATAPATH, which R134 refuses too, it is refused by this name, not as agentForbidden. -/
def execWrEth1 (_v : Word) (_s : State) : Host.Outcome State Fault Refusal :=
  .refused .wrEth1OutOfScope

/-- MW #off, #mask, #value (R85): at 0x4 the write half is refused, at another offset the access. -/
def maskedWrite (off : Nat) (mask value : Word) (s : State) : Res :=
  if off = 0 then .done (s.mwEth0 mask value)
  else if off = 4 then .refused .wrEth1OutOfScope
  else .refused (.badOffset off)

/-- MW as an operation (R85). -/
def execMw (off : Nat) (mask value : Word) (s : State) : Host.Outcome State Fault Refusal :=
  hostOnly s (maskedWrite off mask value)

end Sys2Proof.Machine
end

