-- ==== Sys2Proof/Machine/ClockChain.lean ====
section
/-! DEFINITION. The clock chain family (41_clock_chain.md R87, R93 to R104). -/

namespace Sys2Proof.Machine

/-! ## CHAIN.BUILD (R87) -/

/-- The lookup of parent clock 0 (R87). -/
def lookupParent0 (s : State) : Res :=
  match s.env.lookupAt 0 with
  | .ok => .done { s.popLookup with par0Held := true }
  | .transient => .raised (.clockAcquisitionFailed .transient .parent0) .chainBuild s.popLookup
  | .permanent => .raised (.clockAcquisitionFailed .permanent .parent0) .chainBuild s.popLookup

/-- The lookup of parent clock 1 (R87). -/
def lookupParent1 (s : State) : Res :=
  match s.env.lookupAt 0 with
  | .ok => .done { s.popLookup with par1Held := true }
  | .transient => .raised (.clockAcquisitionFailed .transient .parent1) .chainBuild s.popLookup
  | .permanent => .raised (.clockAcquisitionFailed .permanent .parent1) .chainBuild s.popLookup

/-- The registered stages with one more; a stage that is registered already stays so (R87). -/
def withStage (l : List Node) (n : Node) : List Node := if n ∈ l then l else l ++ [n]

/-- The registration of one stage (R87). -/
def registerStage (n : Node) (s : State) : Res :=
  if s.env.failAt 0 then .raised (.clockRegistrationFailed n) .chainBuild s.popFail
  else .done { s.popFail with stages := withStage s.stages n }

/-- CHAIN.BUILD (R87): two lookups, four registrations in dependency order, no bus write. DESIGN
CHOICE (log 26) where a chain is built already: done, it leaves the count 0 with no disable, the gate
bit and `parent_running` as they were (R35, R88); failing, it leaves the chain as it was (R37). -/
def buildChain (s : State) : Res :=
  ((((((lookupParent0 s).andThen lookupParent1).andThen (registerStage .m250Sel)).andThen
    (registerStage .m250Div)).andThen (registerStage .fixedDiv2)).andThen
    (registerStage .rgmiiTxEn)).andThen (fun s => .done { s with chain := .built 0 })

/-- CHAIN.BUILD as an operation (R87). -/
def execChainBuild (s : State) : Host.Outcome State Fault Refusal :=
  hostOnly s buildChain

/-! ## Rate queries (R93, R95) -/

/-- CLK.GET_RATE as an operation (R93). -/
def execClkGetRate (node : Node) (s : State) : Host.Outcome State Fault Refusal :=
  rateRequest s node (getRate node)

/-- CLK.ROUND_RATE as an operation (R95). -/
def execClkRoundRate (node : Node) (hz : Nat) (s : State) : Host.Outcome State Fault Refusal :=
  rateRequest s node (roundRate node hz)

/-! ## CLK.SET_PARENT and CLK.SET_DIV (R96, R97) -/

/-- The write of CLK.SET_PARENT (R96). -/
def State.writeSel (s : State) (i : Nat) : State := s.mwEth0 selM (selField i)

/-- The write of CLK.SET_DIV (R97). -/
def State.writeDiv (s : State) (d : Nat) : State := s.mwEth0 divM (divField d)

/-- CLK.SET_PARENT (R96). -/
def setParent (node : Node) (i : Nat) (s : State) : Res :=
  if node ≠ .m250Sel then .refused (.wrongNode node)
  else withChain s (fun _ =>
    if i < 2 then .done (s.writeSel i) else .refused (.badParent i))

/-- CLK.SET_PARENT as an operation (R96). -/
def execClkSetParent (node : Node) (i : Nat) (s : State) : Host.Outcome State Fault Refusal :=
  hostOnly s (setParent node i)

/-- CLK.SET_DIV (R97). -/
def setDiv (node : Node) (d : Nat) (s : State) : Res :=
  if node ≠ .m250Div then .refused (.wrongNode node)
  else withChain s (fun _ =>
    if d ∈ Config.divisors then .done (s.writeDiv d) else .refused (.badDivisor d))

/-- CLK.SET_DIV as an operation (R97). -/
def execClkSetDiv (node : Node) (d : Nat) (s : State) : Host.Outcome State Fault Refusal :=
  hostOnly s (setDiv node d)

/-! ## CLK.SET_RATE (R98, R99, R100) -/

/-- The select write of a rate request; it may be left out where the field holds the value when its
turn comes, after the gap before it (R54, R98). From its read to its write no other rate request
touches the select (R55). -/
def State.rateSel (s : State) (o : RateOutcome) (skip : Bool) : State :=
  if skip ∧ selBit (s.gap 0).reg0 = o.sel then s.gap 0
  else s.mwHeld selM selM (selField o.sel.toNat)

/-- The divisor write of a rate request; it may be left out where the field holds the value when its
turn comes, after the gap before it (R54, R98). From its read to its write no other rate request
touches the divisor (R55). -/
def State.rateDiv (s : State) (o : RateOutcome) (skip : Bool) : State :=
  if skip ∧ divRaw (s.gap 0).reg0 = o.div then s.gap 0
  else s.mwHeld divM divM (divField o.div)

/-- The writes of a rate request, in the order the choice gives (R98). -/
def State.rateWrites (s : State) (o : RateOutcome) (c : RateChoice) : State :=
  if c.divFirst then (s.rateDiv o c.skipDiv).rateSel o c.skipSel
  else (s.rateSel o c.skipSel).rateDiv o c.skipDiv

/-- A rate request that the framework does not fail: the parents may change rate (R99), then the
select and the divisor are written (R98). DESIGN CHOICE (log 38): R99 says "during CLK.SET_RATE" and
no more; here the parents change before the first of the writes. -/
def State.applyRate (s : State) (hz : Nat) : State :=
  let c := s.env.rateNow
  let o := rateOutcome s (dividerTarget hz .rgmiiTxEn) c
  { s.popRate with p0 := o.p0, p1 := o.p1 }.rateWrites o c

/-- CLK.SET_RATE (R98): it may fail with nothing changed. -/
def setRate (node : Node) (hz : Nat) (s : State) : Res :=
  if node ≠ .rgmiiTxEn then .refused (.wrongNode node)
  else withChain s (fun _ =>
    if hz = 0 then .refused .rateZero
    else if s.env.failAt 0 then .raised .rateSetFailed .clkSetRate s.popFail
    else .done (s.popFail.applyRate hz))

/-- CLK.SET_RATE as an operation (R98, R103, R140). -/
def execClkSetRate (node : Node) (hz : Nat) (s : State) : Host.Outcome State Fault Refusal :=
  rateRequest s node (setRate node hz)

/-! ## CLK.ENABLE, CLK.DISABLE and CHAIN.RELEASE (R101, R102, R104) -/

/-- The first enable: the parents run, and the gate bit is written 1 (R101). -/
def State.openGate (s : State) : State :=
  { s with run0 := true, run1 := true }.mwEth0 gateM 0x00000400

/-- CLK.ENABLE (R101): only the first enable touches the hardware (D18). -/
def enableChain (node : Node) (s : State) : Res :=
  if node ≠ .rgmiiTxEn then .refused (.wrongNode node)
  else withChain s (fun n =>
    if s.env.failAt 0 then .raised (.clockEnableFailed .rgmiiTx) .clkEnable s.popFail
    else if n = 0 then .done { s.popFail.openGate with chain := .built 1 }
    else .done { s.popFail with chain := .built (n + 1) })

/-- CLK.ENABLE as an operation (R101). -/
def execClkEnable (node : Node) (s : State) : Host.Outcome State Fault Refusal :=
  hostOnly s (enableChain node)

/-- One disable that leaves `n` enables outstanding: only the last writes the gate bit 0 and lets go
of the parents (R102). -/
def State.disableTo (n : Nat) (s : State) : State :=
  if n = 0 then ({ s with chain := .built 0 }.mwEth0 gateM 0x00000000).releaseParents
  else { s with chain := .built n }

/-- CLK.DISABLE (R102). -/
def disableChain (node : Node) (s : State) : Res :=
  if node ≠ .rgmiiTxEn then .refused (.wrongNode node)
  else withChain s (fun n =>
    match n with
    | 0 => .refused .noEnableOutstanding
    | m + 1 => .done (s.disableTo m))

/-- CLK.DISABLE as an operation (R102). -/
def execClkDisable (node : Node) (s : State) : Host.Outcome State Fault Refusal :=
  hostOnly s (disableChain node)

/-- `n` disables (R104). -/
def State.disableAll : Nat → State → State
  | 0, s => s
  | n + 1, s => State.disableAll n (s.disableTo n)

/-- The chain gated off (R104, R155): with no enable outstanding nothing is written (D34); after the
write the other agents may act on the chain once more (R54). -/
def State.gateOff (s : State) (n : Nat) : State :=
  if n = 0 then s else (s.disableAll n).gap 0

/-- The chain gated off, then unregistered (R104, R155). -/
def State.dropChain (s : State) (n : Nat) : State :=
  { s.gateOff n with chain := .none, stages := [] }

/-- CHAIN.RELEASE (R104). -/
def releaseChain (s : State) : Res := withChain s (fun n => .done (s.dropChain n))

/-- CHAIN.RELEASE as an operation (R104). -/
def execChainRelease (s : State) : Host.Outcome State Fault Refusal :=
  hostOnly s releaseChain

end Sys2Proof.Machine
end

