-- ==== Sys2Proof/Machine/Fields.lean ====
section
/-! DEFINITION. The 32 field encodings of PRG_ETH0 (30_encoding.md R66 to R73) as operations. The
spec gives the encodings; DESIGN CHOICE (log 10): as an operation, a row puts its encoding into its
field by the masked write R85 with the row's mask and match, and the block's outputs follow (R49).
A row of one family is refused on an instance of the other, where its field does not exist (R15,
R75; log 11). -/

namespace Sys2Proof.Machine

/-- Whether a row of a family, or of both (`none`), is a row of this instance (R15, R75). -/
def rowOfInstance (s : State) : Option Family → Bool
  | none => true
  | some f => s.params.family == f

/-- A field encoding as an operation (R76, R85; log 10). -/
def fieldWrite (family : Option Family) (mask mtch : Word) (s : State) :
    Host.Outcome State Fault Refusal :=
  hostOnly s (fun s =>
    if rowOfInstance s family then .done (s.mwEth0 mask mtch)
    else .refused .fieldOfOtherFamily)

/-- RGMII_MODE=RGMII (R66). -/
def execRgmiiModeRgmii (s : State) : Host.Outcome State Fault Refusal :=
  fieldWrite (some .legacy) rgmiiModeM 0x00000001 s

/-- RGMII_MODE=RMII (R66). -/
def execRgmiiModeRmii (s : State) : Host.Outcome State Fault Refusal :=
  fieldWrite (some .legacy) rgmiiModeM 0x00000000 s

/-- EXT_PHY_MODE=RGMII (R67). -/
def execExtPhyModeRgmii (s : State) : Host.Outcome State Fault Refusal :=
  fieldWrite (some .extMode) extPhyModeM 0x00000001 s

/-- EXT_PHY_MODE=RMII (R67). -/
def execExtPhyModeRmii (s : State) : Host.Outcome State Fault Refusal :=
  fieldWrite (some .extMode) extPhyModeM 0x00000004 s

/-- CLK_M250_SEL=0 (R68). -/
def execClkM250Sel0 (s : State) : Host.Outcome State Fault Refusal :=
  fieldWrite none selM 0x00000000 s

/-- CLK_M250_SEL=1 (R68). -/
def execClkM250Sel1 (s : State) : Host.Outcome State Fault Refusal :=
  fieldWrite none selM 0x00000010 s

/-- TXDLY=0 (R69). -/
def execTxdly0 (s : State) : Host.Outcome State Fault Refusal :=
  fieldWrite none txdlyM 0x00000000 s

/-- TXDLY=1 (R69). -/
def execTxdly1 (s : State) : Host.Outcome State Fault Refusal :=
  fieldWrite none txdlyM 0x00000020 s

/-- TXDLY=2 (R69). -/
def execTxdly2 (s : State) : Host.Outcome State Fault Refusal :=
  fieldWrite none txdlyM 0x00000040 s

/-- TXDLY=3 (R69). -/
def execTxdly3 (s : State) : Host.Outcome State Fault Refusal :=
  fieldWrite none txdlyM 0x00000060 s

/-- CLK_M250_DIV=2 (R70). -/
def execClkM250Div2 (s : State) : Host.Outcome State Fault Refusal :=
  fieldWrite none divM 0x00000100 s

/-- CLK_M250_DIV=3 (R70). -/
def execClkM250Div3 (s : State) : Host.Outcome State Fault Refusal :=
  fieldWrite none divM 0x00000180 s

/-- CLK_M250_DIV=4 (R70). -/
def execClkM250Div4 (s : State) : Host.Outcome State Fault Refusal :=
  fieldWrite none divM 0x00000200 s

/-- CLK_M250_DIV=5 (R70). -/
def execClkM250Div5 (s : State) : Host.Outcome State Fault Refusal :=
  fieldWrite none divM 0x00000280 s

/-- CLK_M250_DIV=6 (R70). -/
def execClkM250Div6 (s : State) : Host.Outcome State Fault Refusal :=
  fieldWrite none divM 0x00000300 s

/-- CLK_M250_DIV=7 (R70). -/
def execClkM250Div7 (s : State) : Host.Outcome State Fault Refusal :=
  fieldWrite none divM 0x00000380 s

/-- CLK_M250_DIV=0(low) (R70). -/
def execClkM250DivLow0 (s : State) : Host.Outcome State Fault Refusal :=
  fieldWrite none divM 0x00000000 s

/-- CLK_M250_DIV=1(low) (R70). -/
def execClkM250DivLow1 (s : State) : Host.Outcome State Fault Refusal :=
  fieldWrite none divM 0x00000080 s

/-- RGMII_TX_CLK_EN=1 (R71). -/
def execRgmiiTxClkEn1 (s : State) : Host.Outcome State Fault Refusal :=
  fieldWrite none gateM 0x00000400 s

/-- RGMII_TX_CLK_EN=0 (R71). -/
def execRgmiiTxClkEn0 (s : State) : Host.Outcome State Fault Refusal :=
  fieldWrite none gateM 0x00000000 s

/-- INVERTED_RMII_CLK=1 (R71). -/
def execInvertedRmiiClk1 (s : State) : Host.Outcome State Fault Refusal :=
  fieldWrite none invM 0x00000800 s

/-- INVERTED_RMII_CLK=0 (R71). -/
def execInvertedRmiiClk0 (s : State) : Host.Outcome State Fault Refusal :=
  fieldWrite none invM 0x00000000 s

/-- TX_AND_PHY_REF_CLK=1 (R71). -/
def execTxAndPhyRefClk1 (s : State) : Host.Outcome State Fault Refusal :=
  fieldWrite none refM 0x00001000 s

/-- TX_AND_PHY_REF_CLK=0 (R71). -/
def execTxAndPhyRefClk0 (s : State) : Host.Outcome State Fault Refusal :=
  fieldWrite none refM 0x00000000 s

/-- ADJ_ENABLE=1 (R71). -/
def execAdjEnable1 (s : State) : Host.Outcome State Fault Refusal :=
  fieldWrite none adjEnM 0x00002000 s

/-- ADJ_ENABLE=0 (R71). -/
def execAdjEnable0 (s : State) : Host.Outcome State Fault Refusal :=
  fieldWrite none adjEnM 0x00000000 s

/-- ADJ_SETUP=1 (R71). -/
def execAdjSetup1 (s : State) : Host.Outcome State Fault Refusal :=
  fieldWrite none adjSetupM 0x00004000 s

/-- ADJ_SETUP=0 (R71). -/
def execAdjSetup0 (s : State) : Host.Outcome State Fault Refusal :=
  fieldWrite none adjSetupM 0x00000000 s

/-- RXDLY=2ns (R72). -/
def execRxdly2ns (s : State) : Host.Outcome State Fault Refusal :=
  fieldWrite none rxdlyM 0x00006000 s

/-- RXDLY=0ns (R72). -/
def execRxdly0ns (s : State) : Host.Outcome State Fault Refusal :=
  fieldWrite none rxdlyM 0x00000000 s

/-- ADJ_DELAY (R73). -/
def execAdjDelay (s : State) : Host.Outcome State Fault Refusal :=
  fieldWrite none adjDelayM 0x00000000 s

/-- ADJ_SKEW (R73). -/
def execAdjSkew (s : State) : Host.Outcome State Fault Refusal :=
  fieldWrite none adjSkewM 0x00000000 s

end Sys2Proof.Machine
end

