-- ==== Sys2Proof/Machine/Mode.lean ====
section
/-! DEFINITION. The PHY mode encoder family (42_mode_encoder.md R105 to R108). -/

namespace Sys2Proof.Machine

/-- PHYMODE.APPLY (R105): exactly one MW, and none where the mode is rejected (R108). -/
def applyPhyMode (mode : PhyMode) (family : Family) (s : State) : Res :=
  match modePair family mode with
  | some (mask, value) => .done (s.mwEth0 mask value)
  | none => .raised (.invalidPhyMode mode) .phymodeApply s

/-- PHYMODE.APPLY as an operation: mode and family come from the configuration (R105; log 25). -/
def execPhymodeApply (s : State) : Host.Outcome State Fault Refusal :=
  hostOnly s (fun s =>
    match s.cfg with
    | some c => applyPhyMode c.mode c.family s
    | none => .refused .noConfiguration)

end Sys2Proof.Machine
end

