-- ==== Sys2Proof/Machine/Timing.lean ====
section
/-! DEFINITION. The timing and delay encoder family (43_timing_encoder.md R109 to R118). -/

namespace Sys2Proof.Machine

/-- Starting the adjustment clock (R113): it must be there, and a start that fails leaves
`adj_enabled` at the value `left`. -/
def startAdj (left : Bool) (s : State) : Res :=
  match s.adjClk with
  | .absent => .raised (.missingMandatoryClock .adjustment) .adjEnable s
  | .present =>
    if s.env.failAt 0 then
      .raised (.clockEnableFailed .adjustment) .adjEnable { s.popFail with adjEnabled := left }
    else .done { s.popFail with adjEnabled := true }

/-- ADJ.ENABLE (R113): failing, it assigns nothing, and nothing done before is undone (R131). -/
def enableAdj (s : State) : Res := startAdj s.adjEnabled s

/-- ADJ.ENABLE as an operation (R113; log 24). -/
def execAdjClkEnable (s : State) : Host.Outcome State Fault Refusal :=
  hostOnly s enableAdj

/-- Step 4, `AdjCheck` (R113): the clock is asked for only where the probed value has bit 13; where it
fails to start, `adj_enabled = false` is left, whatever an earlier start left (R118). -/
def adjCheck (dc rxf : Word) (s : State) : Res :=
  if adjEnBit (s.params.adjCheckOn.probe dc rxf) then startAdj false s else .done s

/-- Step 5, the delay write (R114). -/
def State.writeDelay (s : State) (dc : Word) : State := s.mwEth0 s.params.delayMask.word dc

/-- Step 6 of the RGMII family, `RgmiiClock` (R115). The other agents may act between its writes and
the operation that comes next: before the rate is chosen, and before the enable can fail (R54). -/
def rgmiiClock (s : State) : Res :=
  (setRate .rgmiiTxEn Config.txRate ((s.mwEth0 invM 0x00000000).gap 0)).andThen
    (fun s => enableChain .rgmiiTxEn (s.gap 0))

/-- Step 6 (R115, R116): RMII sets the inversion and leaves the chain alone. -/
def clockStep (mode : PhyMode) (s : State) : Res :=
  if isRgmiiFamily mode then rgmiiClock s else .done (s.mwEth0 invM 0x00000800)

/-- Step 7 (R117). -/
def State.writeRef (s : State) : State := s.mwEth0 refM 0x00001000

/-- Steps 4 to 7, once the delay value is known (R113 to R117). -/
def timingSteps (mode : PhyMode) (dc rxf : Word) (s : State) : Res :=
  (((adjCheck dc rxf s).andThen (fun s => .done (s.writeDelay dc))).andThen
    (clockStep mode)).andThen (fun s => .done s.writeRef)

/-- TIMING.APPLY (R109): the first error ends it and nothing is rolled back (R118). -/
def applyTiming (mode : PhyMode) (tx rx : Word) (s : State) : Res :=
  withChain s (fun _ =>
    match rxField rx with
    | none => .refused (.rxDelayOutside rx)
    | some rxf =>
      match combine (txField tx) rxf mode with
      | none => .raised (.invalidPhyMode mode) .timingApply s
      | some dc => (timingSteps mode dc rxf s).inStage .timingApply)

/-- TIMING.APPLY as an operation: its operands come from the configuration (R109; log 25). -/
def execTimingApply (s : State) : Host.Outcome State Fault Refusal :=
  hostOnly s (fun s =>
    match s.cfg with
    | some c => applyTiming c.mode c.txDelay c.rxDelay s
    | none => .refused .noConfiguration)

end Sys2Proof.Machine
end

