-- ==== Sys2Proof/Machine/Orchestration.lean ====
section
/-! DEFINITION. The configuration sequence and its release (44_orchestration.md R119 to R126,
60_exceptions.md R132). -/

namespace Sys2Proof.Machine

/-- Configuration acquisition (R119): the mode is the one the mode string names, the family is the
instance's FAMILY, where the selector names a family, and the defaults stand in for delays the
description omits. The adjustment clock is looked up later (R121). -/
def acquire (family : Family) (d : Description) : Option Cfg :=
  if d.namesFamily then
    some ⟨phyModeOf d.mode, family, d.txDelay.getD Config.defaultTxDelay,
      d.rxDelay.getD Config.defaultRxDelay, .absent⟩
  else none

/-- Delay validation (R120): before any bus transaction or clock operation. -/
def validateDelay (c : Cfg) (s : State) : Res :=
  if c.rxDelay = 0 ∨ c.rxDelay = 2 then .done s
  else .raised (.invalidDelayValue c.rxDelay) .validate s

/-- The lookup of the optional adjustment clock (R121): absence is no error here. -/
def acquireAdj (c : Cfg) (s : State) : Res :=
  match s.env.adjNow with
  | .absent => .done { s.popAdj with cfg := some { c with adjClk := .absent } }
  | .present => .done { s.popAdj with cfg := some { c with adjClk := .present }, adjHeld := true }
  | .transient =>
      .raised (.clockAcquisitionFailed .transient .adjustment) .acquireAdj s.popAdj
  | .permanent =>
      .raised (.clockAcquisitionFailed .permanent .adjustment) .acquireAdj s.popAdj

/-- The steps of ORCH.INIT after acquisition, in order (R122, R130). -/
def configure (c : Cfg) (s : State) : Res :=
  ((((validateDelay c s).andThen (acquireAdj c)).andThen buildChain).andThen
    (applyPhyMode c.mode c.family)).andThen (applyTiming c.mode c.txDelay c.rxDelay)

/-- ORCH.INIT (R122). `exclusive_init` is a premise of claims, not a check (R53; log 20). DESIGN
CHOICE (log 40): an adjustment clock that was started before the run, by an ADJ.ENABLE of its own,
stays started where no step of the run fails to start it, though R142 and R143 give `adj_enabled` by
the run alone. DESIGN CHOICE (log 42): a chain that stood before the run stands after a run that fails
before CHAIN.BUILD, though R120 and R143 give `chain = none`. -/
def orchInit (s : State) : Res :=
  if s.result ≠ .idle then .refused .notIdle
  else
    match acquire s.params.family s.desc with
    | none => .refused .unknownFamily
    | some c =>
      (configure c { s with result := .running, cfg := some c }).andThen
        (fun s => .done { s with result := .programmed })

/-- ORCH.INIT as an operation (R122). -/
def execOrchInit (s : State) : Host.Outcome State Fault Refusal :=
  hostOnly s orchInit

/-- What the release lets go of besides the run's outcome (R132): the chain, or the stages registered
so far, the parents' handles, and the adjustment clock, which stops. -/
def State.releaseResources (s : State) : State :=
  { (match s.chain with
     | .built n => s.dropChain n
     | .none => { s with stages := [] }) with
    par0Held := false
    par1Held := false
    adjHeld := false
    adjEnabled := false }

/-- Whether a configuration run has ended (R40, R124). -/
def RunResult.finished : RunResult → Bool
  | .programmed => true
  | .failed _ _ => true
  | .idle => false
  | .running => false

/-- ORCH.RELEASE (R132): it cannot fail, and `pos` is 0 after it (log 18). -/
def execOrchRelease (s : State) : Host.Outcome State Fault Refusal :=
  match s.agent with
  | .host =>
    if s.result.finished then .next s.releaseResources.backToIdle else .refused .notFinished
  | .datapath => .refused .agentForbidden

end Sys2Proof.Machine
end

