-- ==== Sys2Proof/Machine/Dispatch.lean ====
section
/-! DEFINITION. The dispatch: one arm per operation of the opcode table. -/

namespace Sys2Proof.Machine

def exec (i : Instr) (s : State) : Host.Outcome State Fault Refusal :=
  match i with
  | .rdEth0 => Sys2Proof.Machine.execRdEth0 s
  | .wrEth0 v => Sys2Proof.Machine.execWrEth0 v s
  | .rdEth1 => Sys2Proof.Machine.execRdEth1 s
  | .wrEth1 v => Sys2Proof.Machine.execWrEth1 v s
  | .rgmiiModeRgmii => Sys2Proof.Machine.execRgmiiModeRgmii s
  | .rgmiiModeRmii => Sys2Proof.Machine.execRgmiiModeRmii s
  | .extPhyModeRgmii => Sys2Proof.Machine.execExtPhyModeRgmii s
  | .extPhyModeRmii => Sys2Proof.Machine.execExtPhyModeRmii s
  | .clkM250Sel0 => Sys2Proof.Machine.execClkM250Sel0 s
  | .clkM250Sel1 => Sys2Proof.Machine.execClkM250Sel1 s
  | .txdly0 => Sys2Proof.Machine.execTxdly0 s
  | .txdly1 => Sys2Proof.Machine.execTxdly1 s
  | .txdly2 => Sys2Proof.Machine.execTxdly2 s
  | .txdly3 => Sys2Proof.Machine.execTxdly3 s
  | .clkM250Div2 => Sys2Proof.Machine.execClkM250Div2 s
  | .clkM250Div3 => Sys2Proof.Machine.execClkM250Div3 s
  | .clkM250Div4 => Sys2Proof.Machine.execClkM250Div4 s
  | .clkM250Div5 => Sys2Proof.Machine.execClkM250Div5 s
  | .clkM250Div6 => Sys2Proof.Machine.execClkM250Div6 s
  | .clkM250Div7 => Sys2Proof.Machine.execClkM250Div7 s
  | .clkM250DivLow0 => Sys2Proof.Machine.execClkM250DivLow0 s
  | .clkM250DivLow1 => Sys2Proof.Machine.execClkM250DivLow1 s
  | .rgmiiTxClkEn1 => Sys2Proof.Machine.execRgmiiTxClkEn1 s
  | .rgmiiTxClkEn0 => Sys2Proof.Machine.execRgmiiTxClkEn0 s
  | .invertedRmiiClk1 => Sys2Proof.Machine.execInvertedRmiiClk1 s
  | .invertedRmiiClk0 => Sys2Proof.Machine.execInvertedRmiiClk0 s
  | .txAndPhyRefClk1 => Sys2Proof.Machine.execTxAndPhyRefClk1 s
  | .txAndPhyRefClk0 => Sys2Proof.Machine.execTxAndPhyRefClk0 s
  | .adjEnable1 => Sys2Proof.Machine.execAdjEnable1 s
  | .adjEnable0 => Sys2Proof.Machine.execAdjEnable0 s
  | .adjSetup1 => Sys2Proof.Machine.execAdjSetup1 s
  | .adjSetup0 => Sys2Proof.Machine.execAdjSetup0 s
  | .rxdly2ns => Sys2Proof.Machine.execRxdly2ns s
  | .rxdly0ns => Sys2Proof.Machine.execRxdly0ns s
  | .adjDelay => Sys2Proof.Machine.execAdjDelay s
  | .adjSkew => Sys2Proof.Machine.execAdjSkew s
  | .mw off mask value => Sys2Proof.Machine.execMw off mask value s
  | .chainBuild => Sys2Proof.Machine.execChainBuild s
  | .clkGetRate node => Sys2Proof.Machine.execClkGetRate node s
  | .clkRoundRate node hz => Sys2Proof.Machine.execClkRoundRate node hz s
  | .clkSetParent node idx => Sys2Proof.Machine.execClkSetParent node idx s
  | .clkSetDiv node d => Sys2Proof.Machine.execClkSetDiv node d s
  | .clkSetRate node hz => Sys2Proof.Machine.execClkSetRate node hz s
  | .clkEnable node => Sys2Proof.Machine.execClkEnable node s
  | .clkDisable node => Sys2Proof.Machine.execClkDisable node s
  | .chainRelease => Sys2Proof.Machine.execChainRelease s
  | .phymodeApply => Sys2Proof.Machine.execPhymodeApply s
  | .adjClkEnable => Sys2Proof.Machine.execAdjClkEnable s
  | .timingApply => Sys2Proof.Machine.execTimingApply s
  | .orchInit => Sys2Proof.Machine.execOrchInit s
  | .orchRelease => Sys2Proof.Machine.execOrchRelease s

end Sys2Proof.Machine
end

