-- ==== Sys2Proof/Machine/Step.lean ====
section
/-! DEFINITION. One step: the agent whose turn it is issues its next operation, or another agent one
transaction of its own (00_scope.md R6, 10_state.md R42, 20_memory.md R54, R55, 41_clock_chain.md
R103). The block fetches nothing (R58): an operation comes from HOST's list at `pos`, or from
DATAPATH's queue. -/

namespace Sys2Proof.Machine

/-- Whose turn it is: the head of the schedule. DATAPATH goes on with a rate set under way, one move a
step, before it issues a request; HOST is next where the schedule is used up or DATAPATH has nothing
to do (log 17). -/
def State.nextTurn (s : State) : Turn :=
  match s.sched with
  | .other x :: _ => .other x
  | .datapath :: _ =>
    if s.dpJob ≠ [] then .other .datapath else if s.dpQueue ≠ [] then .datapath else .host
  | .host :: _ => .host
  | [] => .host

/-- The operation word the next agent issues, if there is one (R42, R103). -/
def State.fetch (s : State) : Option OpWord :=
  match s.nextTurn with
  | .host => s.hostProg[s.pos]?
  | .datapath => s.dpQueue.head?
  | .other _ => none

/-- The state in which the fetched operation runs: its agent is set, its turn is used up, and a request
of DATAPATH leaves its queue (log 17). The agents' own moves change nothing of the block. -/
def State.issue (s : State) : State :=
  match s.nextTurn with
  | .datapath => { s with agent := .datapath, sched := s.sched.tail, dpQueue := s.dpQueue.tail }
  | .host => { s with agent := .host, sched := s.sched.tail }
  | .other _ => { s with agent := .host, sched := s.sched.tail }

/-- One step: fetch, decode, run. HOST's list does not go on past a raise (R42, R131). A turn of
another agent is one transaction between two operations (R54, R55), HOST's list stopped or not. -/
def step (s : State) : Host.Outcome State Fault Refusal :=
  match s.nextTurn with
  | .other x => .next (s.issue.intrude 0 x)
  | turn =>
    if turn = .host ∧ s.stopped = true then .refused .listStopped
    else
      match s.fetch with
      | none => .refused .endOfList
      | some w =>
        match decode w with
        | .error e => .refused (.undecodable e)
        | .ok i => exec i s.issue

/-- A program is loaded from outside the machine (R42; log 13): the list starts at its first
operation. -/
def State.load (s : State) (prog : List OpWord) : State :=
  { s with hostProg := prog, pos := 0, stopped := false }

/-- The word put at HOST's position; places before it that hold nothing get the same word. -/
def placeAt : Nat → OpWord → List OpWord → List OpWord
  | 0, w, [] => [w]
  | 0, w, _ :: l => w :: l
  | n + 1, w, [] => w :: placeAt n w []
  | n + 1, w, x :: l => x :: placeAt n w l

/-- The state with a table word where step fetches next: HOST's list at `pos`, HOST's turn, and a
list that is not stopped. -/
def State.withFetchWord (s : State) (nbits w : Nat) : State :=
  { s with
    hostProg := placeAt s.pos (OpWord.ofTable nbits w) s.hostProg
    sched := .host :: s.sched
    stopped := false }

end Sys2Proof.Machine
end

