-- ==== Sys2Proof/Machine/Outputs.lean ====
section
/-! DEFINITION. What the block drives at every instant: the frequencies of the chain's nodes
(41_clock_chain.md R88 to R92) and its outputs (10_state.md R36). Both are functions of PRG_ETH0,
FAMILY and the clock inputs; nothing here is stored. -/

namespace Sys2Proof.Machine

/-- A frequency, or `stopped`, which is not a number (00_scope.md R10). -/
inductive Freq where
  | stopped
  | hz (f : Rat)
deriving DecidableEq, Repr

/-- A running clock's frequency changed; a stopped clock stays stopped (R90, R91). -/
def Freq.map (g : Rat → Rat) : Freq → Freq
  | .stopped => .stopped
  | .hz f => .hz (g f)

/-- Whether a parent clock runs: it does while the chain is enabled, else as the environment has it
(R88). -/
def State.parentRuns (s : State) (sel : Bool) : Bool :=
  s.chain.enabled || (if sel then s.run1 else s.run0)

/-- Stage 1 (R88). -/
def State.freqSel (s : State) : Freq :=
  if s.parentRuns (selBit s.reg0) then .hz (if selBit s.reg0 then s.p1 else s.p0) else .stopped

/-- Stage 2 (R89, R90). -/
def State.freqDiv (s : State) : Freq := s.freqSel.map (fun f => f / (hwDiv (divRaw s.reg0) : Rat))

/-- Stage 3 (R91). -/
def State.freqFixed (s : State) : Freq := s.freqDiv.map (fun f => f / 2)

/-- Stage 4, the RGMII TX clock output (R92). -/
def State.freqOut (s : State) : Freq := if gateBit s.reg0 then s.freqFixed else .stopped

/-- The frequency of a node (R35). -/
def State.nodeFreq (s : State) : Node → Freq
  | .m250Sel => s.freqSel
  | .m250Div => s.freqDiv
  | .fixedDiv2 => s.freqFixed
  | .rgmiiTxEn => s.freqOut

/-- The PHY interface select of a PRG_ETH0 word (R36, R66, R67); for a reserved EXT_PHY_MODE it is
`unknown`, a free value (R74; log 29). -/
def phyIf (fam : Family) (w : Word) : PhyIf :=
  match fam with
  | .legacy => if w.getLsbD 0 then .rgmii else .rmii
  | .extMode =>
    if w &&& extPhyModeM = 1 then .rgmii
    else if w &&& extPhyModeM = 4 then .rmii
    else Config.freePhyIf w

/-- The outputs of the block (R36). -/
structure Outputs where
  phyIf : PhyIf
  txClkDelayNs : Nat
  rgmiiTxClk : Freq
  rmiiClkInverted : Bool
  txAndPhyRefClkEn : Bool
  rxAdjEnable : Bool
  rxAdjSetup : Bool
  rxAdjDelay : BitVec 5
  rxAdjSkew : BitVec 5
deriving DecidableEq, Repr

/-- The outputs at a state: they follow the register at once (R36, R49, R152). -/
def State.outputs (s : State) : Outputs where
  phyIf := Machine.phyIf s.params.family s.reg0
  txClkDelayNs := 2 * (fieldGet txdlyM 5 s.reg0).toNat
  rgmiiTxClk := s.freqOut
  rmiiClkInverted := invBit s.reg0
  txAndPhyRefClkEn := refBit s.reg0
  rxAdjEnable := adjEnBit s.reg0
  rxAdjSetup := adjSetupBit s.reg0
  rxAdjDelay := (decodeEth0 s.params.family s.reg0).adjDelay
  rxAdjSkew := (decodeEth0 s.params.family s.reg0).adjSkew

end Sys2Proof.Machine
end

