-- ==== Sys2Proof/Safety.lean ====
section
/-! DEFINITION. The terms claims are stated in: the named premises of the spec, what a masked write
leaves when no other agent interferes, the relation of rate requests, and the invariant. -/

namespace Sys2Proof.Machine

/-- An outcome that is a next state. -/
def Completes (o : Host.Outcome State Fault Refusal) : Prop := ∃ t, o = .next t

/-- `exclusive_init` (R53): no other agent writes PRG_ETH0 during an operation, and no rate set of
DATAPATH is under way. -/
def ExclusiveInit (s : State) : Prop := (∀ k, s.env.gapAt k = []) ∧ s.dpJob = []

/-- `configured_before_datapath` (R144): DATAPATH issues operations only once ORCH.INIT has reached
Programmed. -/
def ConfiguredBeforeDatapath (s : State) : Prop := s.agent = .datapath → s.result = .programmed

/-- HOST issues the operation, and no other agent writes during it. -/
def HostAlone (s : State) : Prop := s.agent = .host ∧ ExclusiveInit s

/-- The next k failure answers are all "it does not fail". -/
def NoFailure (s : State) (k : Nat) : Prop := ∀ j, j < k → s.env.failAt j = false

/-- What `MW #0x0, #mask, #value` of HOST leaves when no other agent writes (R85): the merged word
in PRG_ETH0, the word read in `t`, two transactions, and everything else as it was (but for the
model's count of places where another agent could have acted). -/
def State.afterMw (s : State) (mask value : Word) : State :=
  { s with
    reg0 := (s.reg0 &&& ~~~mask) ||| (value &&& mask)
    t := s.reg0
    txns := s.txns ++ [⟨.host, .read, 0, s.reg0⟩,
      ⟨.host, .write, 0, (s.reg0 &&& ~~~mask) ||| (value &&& mask)⟩]
    env := { s.env with nGap := s.env.nGap + 2 } }

/-- HOST's operation completed: its position advances by one and nothing else changes (R42). -/
def State.advance (s : State) : State := { s with pos := s.pos + 1 }

/-- HOST's operation raised: the result names the error and the stage, the list stops, and nothing
else changes (R129, R131). -/
def State.failedWith (s : State) (kind : ErrKind) (stage : Stage) : State :=
  { s with result := .failed kind stage, stopped := true }

/-- `Outcomes(R)` of R98 for a target `T` of the divider: the divisor is of the table, a parent's
rate is kept or becomes positive (R99), and where the select and the selected parent's rate are
kept the divisor is `RoundClosest`. -/
def Outcomes (s : State) (T : Rat) (o : RateOutcome) : Prop :=
  o.div ∈ Config.divisors
    ∧ (o.p0 = s.p0 ∨ 0 < o.p0)
    ∧ (o.p1 = s.p1 ∨ 0 < o.p1)
    ∧ (o.sel = selBit s.reg0 → o.parent = s.parentRate o.sel →
        o.div = roundClosest (s.parentRate o.sel) T)

/-- The environment answers the coming rate request as the reference resolver does (R100). -/
def ReferenceResolver (s : State) : Prop := s.env.rateNow = referenceChoice s.reg0

/-- The bits of PRG_ETH0 that CLK.SET_RATE may write (R98): [4] and [9:7]. -/
def rateBits : Word := 0x00000390

/-- A move of a rate set under way writes a divisor of the table (R97). -/
def DpMove.ok : DpMove → Prop
  | .setSel _ _ => True
  | .writeSel _ => True
  | .setDiv d _ => d ∈ Config.divisors
  | .writeDiv d => d ∈ Config.divisors

/-- What holds at power-on and is kept by every step: the parents' rates are positive (R33); while
the chain is enabled the parents run (R88); a built chain has all its stages (R38); `running` is
seen by nobody, since ORCH.INIT is one operation (R122); a list stops only by a raise (R131); the
configuration is one that the instance's description can give, of the instance's family (R119); and a
rate set under way writes no divisor outside the table (R97). -/
structure Inv (s : State) : Prop where
  p0_pos : 0 < s.p0
  p1_pos : 0 < s.p1
  parents_run : s.chain.enabled = true → s.run0 = true ∧ s.run1 = true
  all_stages : s.chain ≠ .none → ∀ n, n ∈ s.stages
  not_running : s.result ≠ .running
  stopped_failed : s.stopped = true → ∃ kind stage, s.result = .failed kind stage
  cfg_acquired : ∀ c, s.cfg = some c → c.family = s.params.family ∧ ∃ text, c.mode = phyModeOf text
  job_ok : ∀ m, m ∈ s.dpJob → m.ok

end Sys2Proof.Machine
end

