-- ==== Sys2Proof/Certificates/Slice0/Obligations.lean ====
section
/-! DEFINITION. The statements about the model, for the provers. Premises are on the state and the
operands; an environment answer is a premise on the state's scripts (log 7), so a statement with
such a premise has its counterpart for the other answer. -/

open Sys2Proof Sys2Proof.Machine

/-! ## Encoding -/

/-- R61, R62, R76, R78, R79: decoding an operation's word gives the operation back, whatever its
operands. The words of pseudo-operations are the model's choice (log 14). -/
def Obligations.DecodeOfEncode : Prop :=
  ∀ i : Instr, decode (encode i) = .ok i

/-- R61, R62, R76, R79: a word that decodes has one spelling only, so no two table rows and no two
operand lists share an operation. That a pseudo-operation's word is its name and its operand list, in
the order of R79's syntax, is the model's choice (log 14). -/
def Obligations.EncodeOfDecode : Prop :=
  ∀ (w : OpWord) (i : Instr), decode w = .ok i → encode i = w

/-- R63, R64, R77: the decoder of a PRG_ETH0 word drops no bit, in either family. -/
def Obligations.Eth0DecodeDropsNoBit : Prop :=
  ∀ (fam : Family) (w : Word), assembleEth0 (decodeEth0 fam w) = w

/-- R63, R64, R76: the fields of a PRG_ETH0 word cover every bit, and each is read by the row of the
family with (word & mask) = match, or holds a reserved value where no row has it: in ExtMode every mode
value but 1 and 4, in Legacy bits [2:1], in both bit 3 and bits [31:25]. -/
def Obligations.RowsReadTheWord : Prop :=
  ∀ (fam : Family) (w : Word),
    (fieldsOf fam).foldl (· ||| ·) 0 = 0xFFFFFFFF ∧
    (∀ mask reading, (mask, reading) ∈ readFields fam w →
      (∃ r ∈ fieldRows, r.inFamily fam = true ∧ r.mask = mask ∧ w &&& mask = r.mtch ∧
        reading = .row r.instr) ∨
      ((∀ r ∈ fieldRows, r.inFamily fam = true → r.mask = mask → w &&& mask ≠ r.mtch) ∧
        reading = .reserved (w &&& mask))) ∧
    (0x00000008, .reserved (w &&& 0x00000008)) ∈ readFields fam w ∧
    (0xFE000000, .reserved (w &&& 0xFE000000)) ∈ readFields fam w ∧
    (fam = .legacy →
      (0x00000001, .row (if w &&& 1 = 1 then .rgmiiModeRgmii else .rgmiiModeRmii)) ∈
        readFields fam w ∧
      (0x00000006, .reserved (w &&& 0x00000006)) ∈ readFields fam w) ∧
    (fam = .extMode →
      (0x00000007, if w &&& 7 = 1 then .row .extPhyModeRgmii
        else if w &&& 7 = 4 then .row .extPhyModeRmii else .reserved (w &&& 7)) ∈ readFields fam w)

/-- R65: FIELD_PREP never sets a bit outside the field's mask, and FIELD_GET gives back the value
truncated to the field. -/
def Obligations.FieldPrepThenGet : Prop :=
  (∀ (mask : Word) (lo : Nat) (v : Word), fieldPrep mask lo v &&& ~~~mask = 0) ∧
  (∀ (w lo : Nat) (v : Word), w + lo ≤ 32 →
    (fieldGet (fieldMask w lo) lo (fieldPrep (fieldMask w lo) lo v)).toNat = v.toNat % 2 ^ w)

/-- R62, R76, R79: a few words written out from the spec decode to what they stand for. -/
def Obligations.SampleWordsDecode : Prop :=
  decode (.busRead 0x4 32) = .ok .rdEth1 ∧
  decode (.busWrite 0x0 32 0x21) = .ok (.wrEth0 0x21) ∧
  decode (.prgEth0 0x00000380 0x00000200) = .ok .clkM250Div4 ∧
  decode (.prgEth0 0x00000007 0x00000004) = .ok .extPhyModeRmii ∧
  decode (.prgEth0 0x00000001 0x00000001) = .ok .rgmiiModeRgmii ∧
  decode (.pseudo .clkSetDiv [.node .m250Div, .imm 4]) = .ok (.clkSetDiv .m250Div 4)

/-! ## Steps -/

/-- R42, R54, R58, R103: a step whose turn is HOST's fetches the word at HOST's position, and one
whose turn is DATAPATH's fetches DATAPATH's oldest request; it runs exactly the operation the word
decodes to, in the state as it was but for whose turn it is and, for DATAPATH, its queue. That
DATAPATH's requests wait in a queue, oldest first, and that a schedule says whose turn it is, is the
model's choice (log 17). -/
def Obligations.StepRunsDecodedOperation : Prop :=
  ∀ (s : State) (w : OpWord) (i : Instr),
    (s.nextTurn = .host → s.stopped = false) → s.fetch = some w → decode w = .ok i →
    step s = exec i s.issue ∧
    (s.nextTurn = .host →
      s.hostProg[s.pos]? = some w ∧
      s.issue = { s with agent := .host, sched := s.sched.tail }) ∧
    (s.nextTurn = .datapath →
      s.dpQueue = w :: s.dpQueue.tail ∧ s.dpJob = [] ∧
      s.issue = { s with
        agent := .datapath
        sched := s.sched.tail
        dpQueue := s.dpQueue.tail })

/-- R42, R46, R47, R131: the steps that are refused before any operation runs, each by name: HOST's
list after a raise, a position with no operation, and a word that decodes to nothing, such as a bus
access of another width or at another offset. That a stopped list gives a refusal, and that a list has
an end and gives one there, is the model's reading (log 16, 13); that an access wrong in width and in
offset is refused by its width is the model's choice (log 41). -/
def Obligations.StepsRefusedByName : Prop :=
  (∀ s : State, s.nextTurn = .host → s.stopped = true → step s = .refused .listStopped) ∧
  (∀ s : State, s.nextTurn = .host → s.stopped = false → s.hostProg.length ≤ s.pos →
    step s = .refused .endOfList) ∧
  (∀ (s : State) (w : OpWord) (e : DecodeError),
    (s.nextTurn = .host → s.stopped = false) → s.fetch = some w → decode w = .error e →
    step s = .refused (.undecodable e)) ∧
  (∀ (off width : Nat) (data : Word), (width ≠ 32 ∨ (off ≠ 0 ∧ off ≠ 4)) →
    decode (.busRead off width) = .error (if width ≠ 32 then .badWidth width else .badOffset off) ∧
    decode (.busWrite off width data) =
      .error (if width ≠ 32 then .badWidth width else .badOffset off))

/-- R54, R55, R93, R95, R98, R103, R134, R144: between two operations of HOST, its list stopped or
not, each transaction of another agent is a step of its own. Another master's write lands whole.
DATAPATH, once the result is Programmed, begins its oldest rate set: it is failed with nothing changed
but what DATAPATH is told, or the parents take the rates of an outcome (before the writes: log 38) and
its two writes are to come, in either order. Then each is a read, skipped only where the field holds
the value, and a write of the word that was read with the field replaced. A rate query or a rounding
is one move. DATAPATH does nothing where it has no request, before the result is Programmed, and where
its oldest request is refused, which stays where it is. The turns are the model's form of
"interleaving", and that a refused request stays (log 17) and that the result as it stands counts (log
39) are its choice. -/
def Obligations.OtherAgentsActBetweenOperations : Prop :=
  (∀ (s : State) (v : Word), s.nextTurn = .other (.write v) →
    step s = .next { s with reg0 := v, agent := .host, sched := s.sched.tail }) ∧
  (∀ s : State, s.nextTurn = .other .datapath →
    let u := { s with agent := .host, sched := s.sched.tail }
    (s.dpJob = [] → (s.dpQueue = [] ∨ s.result ≠ .programmed) → step s = .next u) ∧
    (∀ hz rest n, s.dpJob = [] → s.dpQueue = encode (.clkSetRate .rgmiiTxEn hz) :: rest →
      s.result = .programmed → s.chain = .built n → 0 < hz →
      (s.env.failAt 0 = true → step s = .next { u with
        dpQueue := rest
        dpError := some .rateSetFailed
        env := { s.env with nFail := s.env.nFail + 1 } }) ∧
      (s.env.failAt 0 = false → ∃ o a b, Outcomes s (2 * (hz : Rat)) o ∧
        ∃ job, (job = [.setSel o.sel a, .setDiv o.div b] ∨ job = [.setDiv o.div b, .setSel o.sel a]) ∧
          step s = .next { u with
            dpQueue := rest
            dpError := none
            p0 := o.p0
            p1 := o.p1
            dpJob := job
            env := { s.env with nFail := s.env.nFail + 1, nRate := s.env.nRate + 1 } })) ∧
    (∀ rest n, s.dpJob = [] → s.dpQueue = encode (.clkGetRate .rgmiiTxEn) :: rest →
      s.result = .programmed → s.chain = .built n →
      let raw := ((s.reg0 >>> 7) &&& 7).toNat
      let parent := if s.reg0.getLsbD 4 then s.p1 else s.p0
      step s = .next { u with
        dpQueue := rest
        dpT := s.reg0
        dpRate := parent / ((if raw < 2 then 1 else raw : Nat) : Rat) / 2
        dpError := none
        txns := s.txns ++ [⟨.datapath, .read, 0, s.reg0⟩] }) ∧
    (∀ hz rest n, s.dpJob = [] → s.dpQueue = encode (.clkRoundRate .rgmiiTxEn hz) :: rest →
      s.result = .programmed → s.chain = .built n → 0 < hz →
      ∃ o, Outcomes s (2 * (hz : Rat)) o ∧
        step s = .next { u with
          dpQueue := rest
          dpRate := o.parent / (o.div : Rat) / 2
          dpError := none
          env := { s.env with nRate := s.env.nRate + 1 } }) ∧
    (∀ w rest, s.dpJob = [] → s.dpQueue = w :: rest → s.result = .programmed →
      ((∃ e, decode w = .error e) ∨
        (∃ i, decode w = .ok i ∧
          (s.chain = .none ∨ i = .clkRoundRate .rgmiiTxEn 0 ∨ i = .clkSetRate .rgmiiTxEn 0 ∨
            (i ≠ .clkGetRate .rgmiiTxEn ∧ ∀ hz, i ≠ .clkRoundRate .rgmiiTxEn hz ∧
              i ≠ .clkSetRate .rgmiiTxEn hz)))) →
      step s = .next u) ∧
    (∀ sel skip rest, s.dpJob = .setSel sel skip :: rest →
      step s = .next (if skip = true ∧ selBit s.reg0 = sel then { u with dpJob := rest } else { u with
        dpT := s.reg0
        txns := s.txns ++ [⟨.datapath, .read, 0, s.reg0⟩]
        dpJob := .writeSel sel :: rest })) ∧
    (∀ d skip rest, s.dpJob = .setDiv d skip :: rest →
      step s = .next (if skip = true ∧ divRaw s.reg0 = d then { u with dpJob := rest } else { u with
        dpT := s.reg0
        txns := s.txns ++ [⟨.datapath, .read, 0, s.reg0⟩]
        dpJob := .writeDiv d :: rest })) ∧
    (∀ sel rest, s.dpJob = .writeSel sel :: rest →
      let new := (s.dpT &&& ~~~0x00000010) ||| (if sel then 0x00000010 else 0)
      step s = .next { u with
        reg0 := new
        txns := s.txns ++ [⟨.datapath, .write, 0, new⟩]
        dpJob := rest }) ∧
    (∀ d rest, s.dpJob = .writeDiv d :: rest → 2 ≤ d → d ≤ 7 →
      let new := (s.dpT &&& ~~~0x00000380) ||| BitVec.ofNat 32 (128 * d)
      step s = .next { u with
        reg0 := new
        txns := s.txns ++ [⟨.datapath, .write, 0, new⟩]
        dpJob := rest }))

/-- R55: two rate requests never interleave their transactions on one field. While HOST's rate request
holds a field, DATAPATH waits whose next move is a transaction on that field: the move changes nothing,
nor does a whole gap let a transaction on the field through. HOST's read for a field comes after the
write of DATAPATH, where DATAPATH has read for that field, and HOST's own read and write of a field
stand next to each other where DATAPATH is about to read for it; this is said of the field that a
CLK.SET_RATE handles first. That what waits is a move of DATAPATH's, and that a field is held from the
read to the write, is the model's form of "serialize" (log 9, 17). -/
def Obligations.RateRequestsOnOneFieldAreSerial : Prop :=
  (∀ (s : State) (rest : List DpMove), s.agent = .host →
    (∀ sel, s.dpJob = .writeSel sel :: rest → s.intrude 0x10 .datapath = s) ∧
    (∀ d, s.dpJob = .writeDiv d :: rest → s.intrude 0x380 .datapath = s) ∧
    (∀ sel skip, s.dpJob = .setSel sel skip :: rest → ¬ (skip = true ∧ selBit s.reg0 = sel) →
      s.intrude 0x10 .datapath = s) ∧
    (∀ d skip, s.dpJob = .setDiv d skip :: rest → ¬ (skip = true ∧ divRaw s.reg0 = d) →
      s.intrude 0x380 .datapath = s)) ∧
  (∀ (s : State) (rest : List DpMove), s.agent = .host →
    (∀ sel, s.dpJob = .writeSel sel :: rest ∨ s.dpJob = .setSel sel false :: rest →
      (s.gap 0x10).dpJob = s.dpJob ∧ (s.gap 0x10).txns = s.txns ∧ (s.gap 0x10).dpT = s.dpT) ∧
    (∀ d, s.dpJob = .writeDiv d :: rest ∨ s.dpJob = .setDiv d false :: rest →
      (s.gap 0x380).dpJob = s.dpJob ∧ (s.gap 0x380).txns = s.txns ∧ (s.gap 0x380).dpT = s.dpT)) ∧
  (∀ (s : State) (n hz : Nat) (rest : List DpMove), s.agent = .host → s.chain = .built n → 0 < hz →
    s.env.failAt 0 = false →
    let c := s.env.rateNow
    let o := rateOutcome s (2 * (hz : Rat)) c
    let u := ({ s with
      p0 := o.p0
      p1 := o.p1
      env := { s.env with nFail := s.env.nFail + 1, nRate := s.env.nRate + 1 } } : State).gap 0
    (c.divFirst = false → ¬ (c.skipSel = true ∧ selBit u.reg0 = o.sel) →
      (∀ sel, u.dpJob = .writeSel sel :: rest →
        let w := (u.dpT &&& ~~~0x00000010) ||| (if sel then 0x00000010 else 0)
        ∃ t later, exec (.clkSetRate .rgmiiTxEn hz) s = .next t ∧
          t.txns = u.txns ++ [⟨.datapath, .write, 0, w⟩, ⟨.host, .read, 0, w⟩] ++ later) ∧
      (∀ sel, u.dpJob = .setSel sel false :: rest →
        let w := (u.reg0 &&& ~~~0x00000010) ||| (if o.sel then 0x00000010 else 0)
        ∃ t later, exec (.clkSetRate .rgmiiTxEn hz) s = .next t ∧
          t.txns = u.txns ++ [⟨.host, .read, 0, u.reg0⟩, ⟨.host, .write, 0, w⟩] ++ later)) ∧
    (c.divFirst = true → ¬ (c.skipDiv = true ∧ divRaw u.reg0 = o.div) →
      (∀ d, u.dpJob = .writeDiv d :: rest → 2 ≤ d → d ≤ 7 →
        let w := (u.dpT &&& ~~~0x00000380) ||| BitVec.ofNat 32 (128 * d)
        ∃ t later, exec (.clkSetRate .rgmiiTxEn hz) s = .next t ∧
          t.txns = u.txns ++ [⟨.datapath, .write, 0, w⟩, ⟨.host, .read, 0, w⟩] ++ later) ∧
      (∀ d, u.dpJob = .setDiv d false :: rest →
        let w := (u.reg0 &&& ~~~0x00000380) ||| BitVec.ofNat 32 (128 * o.div)
        ∃ t later, exec (.clkSetRate .rgmiiTxEn hz) s = .next t ∧
          t.txns = u.txns ++ [⟨.host, .read, 0, u.reg0⟩, ⟨.host, .write, 0, w⟩] ++ later)))

/-- R42, R131: an operation of HOST that does not end the run either completes and advances the
position by one, or raises: then the position stays, the list is stopped, and the result is
Failed. Only the release sets the position back (R132); that it does so in spite of R42, and that the
list then goes on, is the model's reading (log 18). -/
def Obligations.HostOperationsAdvanceOrRaise : Prop :=
  ∀ (i : Instr) (s t : State), s.agent = .host → exec i s = .next t →
    (i ≠ .orchRelease ∧ t.pos = s.pos + 1 ∧ t.stopped = s.stopped) ∨
    (i ≠ .orchRelease ∧ t.pos = s.pos ∧ t.stopped = true ∧
      ∃ kind stage, t.result = .failed kind stage) ∨
    (i = .orchRelease ∧ t.pos = 0 ∧ t.stopped = false ∧ t.result = .idle)

/-! ## Bus access -/

/-- R48, R81: a read has no side effect: RD.ETH0 completes, puts PRG_ETH0 in `t`, and neither it nor
RD.ETH1 changes a bit of either register, an output or a clock. -/
def Obligations.ReadsHaveNoSideEffect : Prop :=
  (∀ s : State, s.agent = .host →
    ∃ t, exec .rdEth0 s = .next t ∧
      t = { s with
        t := s.reg0
        txns := s.txns ++ [⟨.host, .read, 0, s.reg0⟩]
        pos := s.pos + 1 }) ∧
  (∀ (i : Instr) (s t : State), (i = .rdEth0 ∨ i = .rdEth1) → exec i s = .next t →
    t.reg0 = s.reg0 ∧ t.reg1 = s.reg1 ∧ t.outputs = s.outputs ∧ (∀ n, t.nodeFreq n = s.nodeFreq n) ∧
    t.p0 = s.p0 ∧ t.p1 = s.p1 ∧ t.run0 = s.run0 ∧ t.run1 = s.run1 ∧ t.adjEnabled = s.adjEnabled)

/-- R83: RD.ETH1 completes with a drawn value; no register, output or clock changes. Every value is
possible on every read: under one environment two reads, one after the other, may give any two values,
so they may differ. -/
def Obligations.ReadEth1DrawsAnyValue : Prop :=
  (∀ s : State, s.agent = .host →
    ∃ t v, exec .rdEth1 s = .next t ∧
      t = { s with
        t := v
        txns := s.txns ++ [⟨.host, .read, 4, v⟩]
        env := { s.env with nWord := s.env.nWord + 1 }
        pos := s.pos + 1 } ∧
      t.outputs = s.outputs ∧ ∀ n, t.nodeFreq n = s.nodeFreq n) ∧
  (∀ (s : State) (v w : Word), s.agent = .host →
    ∃ e t u, exec .rdEth1 { s with env := e } = .next t ∧ t.t = v ∧
      exec .rdEth1 t = .next u ∧ u.t = w)

/-- R49, R82: WR.ETH0 completes, replaces all 32 bits at once, the outputs are at once those of the
new word, and writing the value held changes no register and no output. -/
def Obligations.WriteEth0ReplacesEveryBit : Prop :=
  ∀ (s : State) (v : Word), s.agent = .host →
    ∃ t, exec (.wrEth0 v) s = .next t ∧
      t = { s with
        reg0 := v
        txns := s.txns ++ [⟨.host, .write, 0, v⟩]
        pos := s.pos + 1 } ∧
      t.outputs = { s with reg0 := v }.outputs ∧
      (v = s.reg0 → t.reg0 = s.reg0 ∧ t.outputs = s.outputs)

/-- R84: WR.ETH1 is refused, whatever the value and the state. That it has this name from DATAPATH too,
where R134 also refuses it, is the model's choice (log 25). -/
def Obligations.WriteEth1IsRefused : Prop :=
  ∀ (s : State) (v : Word), exec (.wrEth1 v) s = .refused .wrEth1OutOfScope

/-- R47, R50, R54, R84, R85: MW #0x0 completes: whatever the other agents do in the gap before its read
(`s.gap 0`), it reads what stands in PRG_ETH0 then, and after another gap writes that word
with the bits under the mask replaced. Where nobody acts, and also where another master writes between
the two halves, it leaves exactly what it leaves alone: the other write is lost. At offset 0x4 the
write half is refused (R84), at another offset the access (R47). That what others do comes at two gaps,
by a script of the state, is the model's form of interleaving (log 8, 9). -/
def Obligations.MaskedWriteMergesUnderMask : Prop :=
  (∀ (s : State) (mask value : Word), s.agent = .host →
    let read := (s.gap 0).reg0
    let new := (read &&& ~~~mask) ||| (value &&& mask)
    let v := (s.gap 0).readEth0.gap 0
    exec (.mw 0 mask value) s = .next { v with
      reg0 := new
      txns := v.txns ++ [⟨.host, .write, 0, new⟩]
      pos := s.pos + 1 } ∧
    v.t = read ∧
    (s.env.gapAt 0 = [] → read = s.reg0) ∧ (∀ x, s.env.gapAt 0 = [.write x] → read = x)) ∧
  (∀ (s : State) (mask value x : Word), s.agent = .host → s.env.gapAt 0 = [] →
    (s.env.gapAt 1 = [] ∨ s.env.gapAt 1 = [.write x]) →
    exec (.mw 0 mask value) s = .next (s.afterMw mask value).advance) ∧
  (∀ (s : State) (mask value : Word), s.agent = .host →
    exec (.mw 4 mask value) s = .refused .wrEth1OutOfScope) ∧
  (∀ (s : State) (off : Nat) (mask value : Word), s.agent = .host → off ≠ 0 → off ≠ 4 →
    exec (.mw off mask value) s = .refused (.badOffset off))

/-- R52, R147: of two masked writes of HOST, alone on the bus, each bit ends as the last one that
covered it wrote it; issuing the same one twice leaves the register as once (R85). -/
def Obligations.LaterMaskedWriteOverrides : Prop :=
  ∀ (s : State) (m1 v1 m2 v2 : Word), HostAlone s →
    ∃ t u, exec (.mw 0 m1 v1) s = .next t ∧ exec (.mw 0 m2 v2) t = .next u ∧
      (∀ i, u.reg0.getLsbD i =
        if m2.getLsbD i then v2.getLsbD i
        else if m1.getLsbD i then v1.getLsbD i else s.reg0.getLsbD i) ∧
      (m1 = m2 → v1 = v2 → u.reg0 = t.reg0)

/-- R44, R45: bit i of the register at an offset is bit i mod 8 of byte i div 8 of the window, and
nothing outside the 8 bytes is addressable. -/
def Obligations.WindowIsLittleEndian : Prop :=
  ∀ s : State,
    (∀ i, i < 32 →
      (∃ b, s.byteAt (s.params.base + 0 + i / 8) = some b ∧
        b.getLsbD (i % 8) = s.reg0.getLsbD i) ∧
      (∃ b, s.byteAt (s.params.base + 4 + i / 8) = some b ∧
        b.getLsbD (i % 8) = s.reg1.getLsbD i)) ∧
    (∀ a, a < s.params.base ∨ s.params.base + 8 ≤ a → s.byteAt a = none)

/-! ## Field encodings (log 10: that a row is an operation is the model's choice) -/

/-- R15, R66, R67 (log 10, 11): on an instance of its family, each mode row puts its value under its
mask, changes nothing else, and the interface select follows; on an instance of the other family,
where its field does not exist, it is refused. -/
def Obligations.ModeRowsSelectInterface : Prop :=
  (∀ s : State, HostAlone s →
    (s.params.family = .legacy →
      exec .rgmiiModeRgmii s = .next (s.afterMw 0x1 0x1).advance ∧
      exec .rgmiiModeRmii s = .next (s.afterMw 0x1 0x0).advance ∧
      (s.afterMw 0x1 0x1).outputs.phyIf = .rgmii ∧ (s.afterMw 0x1 0x0).outputs.phyIf = .rmii) ∧
    (s.params.family = .extMode →
      exec .extPhyModeRgmii s = .next (s.afterMw 0x7 0x1).advance ∧
      exec .extPhyModeRmii s = .next (s.afterMw 0x7 0x4).advance ∧
      (s.afterMw 0x7 0x1).outputs.phyIf = .rgmii ∧ (s.afterMw 0x7 0x4).outputs.phyIf = .rmii)) ∧
  (∀ s : State, s.agent = .host →
    (s.params.family = .extMode →
      exec .rgmiiModeRgmii s = .refused .fieldOfOtherFamily ∧
      exec .rgmiiModeRmii s = .refused .fieldOfOtherFamily) ∧
    (s.params.family = .legacy →
      exec .extPhyModeRgmii s = .refused .fieldOfOtherFamily ∧
      exec .extPhyModeRmii s = .refused .fieldOfOtherFamily))

/-- R68, R70, R89 (log 10): each select and divider row puts its value under its mask and changes
nothing else; the select and the divisors read from the register are then the row's. For the raw
values 0 and 1 the host computes with 1 and the silicon with DIV_LOW_HW. -/
def Obligations.ClockRowsSetSelectAndDivisor : Prop :=
  ∀ s : State, HostAlone s →
    (exec .clkM250Sel0 s = .next (s.afterMw 0x10 0x00).advance ∧
      selBit (s.afterMw 0x10 0x00).reg0 = false) ∧
    (exec .clkM250Sel1 s = .next (s.afterMw 0x10 0x10).advance ∧
      selBit (s.afterMw 0x10 0x10).reg0 = true) ∧
    (exec .clkM250DivLow0 s = .next (s.afterMw 0x380 0x000).advance ∧
      exec .clkM250DivLow1 s = .next (s.afterMw 0x380 0x080).advance ∧
      exec .clkM250Div2 s = .next (s.afterMw 0x380 0x100).advance ∧
      exec .clkM250Div3 s = .next (s.afterMw 0x380 0x180).advance ∧
      exec .clkM250Div4 s = .next (s.afterMw 0x380 0x200).advance ∧
      exec .clkM250Div5 s = .next (s.afterMw 0x380 0x280).advance ∧
      exec .clkM250Div6 s = .next (s.afterMw 0x380 0x300).advance ∧
      exec .clkM250Div7 s = .next (s.afterMw 0x380 0x380).advance) ∧
    (∀ d, d < 8 →
      divRaw (s.afterMw 0x380 (BitVec.ofNat 32 (128 * d))).reg0 = d ∧
      swDiv d = (if d < 2 then 1 else d) ∧ hwDiv d = (if d < 2 then Config.divLowHw else d))

/-- R22, R69, R71, R72, R73 (log 10): the row TXDLY=n puts n under its mask and the TX delay is then
2n ns; each one-bit row sets or clears its bit and its control follows; RXDLY=2ns sets ADJ_ENABLE and
ADJ_SETUP together and RXDLY=0ns clears both; the rows ADJ_DELAY and ADJ_SKEW clear their fields;
nothing else changes. -/
def Obligations.DelayAndControlRowsSetTheirField : Prop :=
  ∀ s : State, HostAlone s →
    (exec .txdly0 s = .next (s.afterMw 0x60 0x00).advance ∧
      (s.afterMw 0x60 0x00).outputs.txClkDelayNs = 0) ∧
    (exec .txdly1 s = .next (s.afterMw 0x60 0x20).advance ∧
      (s.afterMw 0x60 0x20).outputs.txClkDelayNs = 2) ∧
    (exec .txdly2 s = .next (s.afterMw 0x60 0x40).advance ∧
      (s.afterMw 0x60 0x40).outputs.txClkDelayNs = 4) ∧
    (exec .txdly3 s = .next (s.afterMw 0x60 0x60).advance ∧
      (s.afterMw 0x60 0x60).outputs.txClkDelayNs = 6) ∧
    (exec .rgmiiTxClkEn1 s = .next (s.afterMw 0x400 0x400).advance ∧
      gateBit (s.afterMw 0x400 0x400).reg0 = true) ∧
    (exec .rgmiiTxClkEn0 s = .next (s.afterMw 0x400 0).advance ∧
      (s.afterMw 0x400 0).outputs.rgmiiTxClk = .stopped) ∧
    (exec .invertedRmiiClk1 s = .next (s.afterMw 0x800 0x800).advance ∧
      (s.afterMw 0x800 0x800).outputs.rmiiClkInverted = true) ∧
    (exec .invertedRmiiClk0 s = .next (s.afterMw 0x800 0).advance ∧
      (s.afterMw 0x800 0).outputs.rmiiClkInverted = false) ∧
    (exec .txAndPhyRefClk1 s = .next (s.afterMw 0x1000 0x1000).advance ∧
      (s.afterMw 0x1000 0x1000).outputs.txAndPhyRefClkEn = true) ∧
    (exec .txAndPhyRefClk0 s = .next (s.afterMw 0x1000 0).advance ∧
      (s.afterMw 0x1000 0).outputs.txAndPhyRefClkEn = false) ∧
    (exec .adjEnable1 s = .next (s.afterMw 0x2000 0x2000).advance ∧
      (s.afterMw 0x2000 0x2000).outputs.rxAdjEnable = true) ∧
    (exec .adjEnable0 s = .next (s.afterMw 0x2000 0).advance ∧
      (s.afterMw 0x2000 0).outputs.rxAdjEnable = false) ∧
    (exec .adjSetup1 s = .next (s.afterMw 0x4000 0x4000).advance ∧
      (s.afterMw 0x4000 0x4000).outputs.rxAdjSetup = true) ∧
    (exec .adjSetup0 s = .next (s.afterMw 0x4000 0).advance ∧
      (s.afterMw 0x4000 0).outputs.rxAdjSetup = false) ∧
    (exec .rxdly2ns s = .next (s.afterMw 0x6000 0x6000).advance ∧
      (s.afterMw 0x6000 0x6000).outputs.rxAdjEnable = true ∧
      (s.afterMw 0x6000 0x6000).outputs.rxAdjSetup = true) ∧
    (exec .rxdly0ns s = .next (s.afterMw 0x6000 0).advance ∧
      (s.afterMw 0x6000 0).outputs.rxAdjEnable = false ∧
      (s.afterMw 0x6000 0).outputs.rxAdjSetup = false) ∧
    (exec .adjDelay s = .next (s.afterMw 0x000F8000 0).advance ∧
      (s.afterMw 0x000F8000 0).outputs.rxAdjDelay = 0) ∧
    (exec .adjSkew s = .next (s.afterMw 0x01F00000 0).advance ∧
      (s.afterMw 0x01F00000 0).outputs.rxAdjSkew = 0)

/-! ## Clock chain -/

/-- R87: where both lookups succeed and no registration fails, CHAIN.BUILD completes: the chain is
built(0), both parent handles are held, all four stages are registered, and no register, clock or
other state changes. That the construction issues no RD.ETH0, which R87 allows it, and that it may be
repeated where a chain stands, its count then 0 with the gate and the parents as they were, is the
model's choice (log 26). -/
def Obligations.ChainBuildCompletes : Prop :=
  ∀ s : State, s.agent = .host → s.env.lookupAt 0 = .ok → s.env.lookupAt 1 = .ok → NoFailure s 4 →
    ∃ t, exec .chainBuild s = .next t ∧
      t = { s with
        chain := .built 0
        par0Held := true
        par1Held := true
        stages := t.stages
        env := { s.env with nLookup := s.env.nLookup + 2, nFail := s.env.nFail + 4 }
        pos := s.pos + 1 } ∧
      (∀ n, n ∈ t.stages) ∧ (s.stages = [] → t.stages = [.m250Sel, .m250Div, .fixedDiv2, .rgmiiTxEn])

/-- R87, R127, R132: the first lookup or registration that fails ends CHAIN.BUILD with the error that
names it. What was acquired before it is held: the handle of parent 0 where its lookup succeeded, that
of parent 1 where both did, and the stages registered so far. Nothing else changes but the draws and
the outcome of the run: the registers, the clocks, the chain and the position stay. That no RD.ETH0
is issued, and that a chain that stood before the failing repeat stands after it, is the model's
choice (log 26). -/
def Obligations.ChainBuildReportsFirstFailure : Prop :=
  ∀ s : State, s.agent = .host →
    ∃ t, exec .chainBuild s = .next t ∧
      t = { s with
        par0Held := t.par0Held
        par1Held := t.par1Held
        stages := t.stages
        chain := t.chain
        result := t.result
        stopped := t.stopped
        pos := t.pos
        env := { s.env with nLookup := t.env.nLookup, nFail := t.env.nFail } } ∧
      (s.env.lookupAt 0 = .transient →
        t.result = .failed (.clockAcquisitionFailed .transient .parent0) .chainBuild) ∧
      (s.env.lookupAt 0 = .permanent →
        t.result = .failed (.clockAcquisitionFailed .permanent .parent0) .chainBuild) ∧
      (s.env.lookupAt 0 = .ok → s.env.lookupAt 1 = .transient →
        t.result = .failed (.clockAcquisitionFailed .transient .parent1) .chainBuild) ∧
      (s.env.lookupAt 0 = .ok → s.env.lookupAt 1 = .permanent →
        t.result = .failed (.clockAcquisitionFailed .permanent .parent1) .chainBuild) ∧
      (s.env.lookupAt 0 ≠ .ok →
        t.par0Held = s.par0Held ∧ t.par1Held = s.par1Held ∧ t.stages = s.stages) ∧
      (s.env.lookupAt 0 = .ok → s.env.lookupAt 1 ≠ .ok →
        t.par0Held = true ∧ t.par1Held = s.par1Held ∧ t.stages = s.stages) ∧
      (s.env.lookupAt 0 = .ok → s.env.lookupAt 1 = .ok →
        let order := [Node.m250Sel, .m250Div, .fixedDiv2, .rgmiiTxEn]
        ∀ k n, order[k]? = some n → NoFailure s k → s.env.failAt k = true →
          t.result = .failed (.clockRegistrationFailed n) .chainBuild ∧
          t.par0Held = true ∧ t.par1Held = true ∧
          (∀ m, m ∈ t.stages ↔ m ∈ s.stages ∨ m ∈ order.take k) ∧
          (s.stages = [] → t.stages = order.take k)) ∧
      ((s.env.lookupAt 0 ≠ .ok ∨ s.env.lookupAt 1 ≠ .ok ∨ ∃ k, k < 4 ∧ s.env.failAt k = true) →
        t.chain = s.chain ∧ t.pos = s.pos ∧ t.stopped = true)

/-- R93: CLK.GET_RATE reads PRG_ETH0 once and reports the rate of the node from the select, the raw
divisor (0 and 1 count as 1) and the parent's rate; it asks neither the gate nor whether a parent
runs, and changes nothing else. Without a chain it is refused. -/
def Obligations.GetRateReportsConfiguredRate : Prop :=
  (∀ (s : State) (n : Nat) (node : Node), s.agent = .host → s.chain = .built n →
    let raw := ((s.reg0 >>> 7) &&& 7).toNat
    let parent := if s.reg0.getLsbD 4 then s.p1 else s.p0
    let rDiv := parent / ((if raw < 2 then 1 else raw : Nat) : Rat)
    exec (.clkGetRate node) s = .next { s with
      t := s.reg0
      rate :=
        match node with
        | .m250Sel => parent
        | .m250Div => rDiv
        | .fixedDiv2 => rDiv / 2
        | .rgmiiTxEn => rDiv / 2
      txns := s.txns ++ [⟨.host, .read, 0, s.reg0⟩]
      pos := s.pos + 1 }) ∧
  (∀ (s : State) (node : Node), s.agent = .host → s.chain = .none →
    exec (.clkGetRate node) s = .refused .noChain)

/-- R95: CLK.ROUND_RATE completes with the rate of the node under some outcome of the request and
changes nothing else; under the reference answer (no parent may change its rate, the select is
kept) it reports P/RoundClosest(P, 2R)/2 for `rgmii_tx_en`. A rate of 0, or no chain, is refused
(which of the two is named first: log 25). That the divider is asked for R itself at `m250_div` and
for 2R at `fixed_div2` is the model's reading (log 22). -/
def Obligations.RoundRateReportsAnOutcome : Prop :=
  (∀ (s : State) (n : Nat) (node : Node) (hz : Nat),
    s.agent = .host → s.chain = .built n → 0 < hz →
    let target : Rat := if node = .m250Div then (hz : Rat) else 2 * (hz : Rat)
    ∃ o, Outcomes s target o ∧
      exec (.clkRoundRate node hz) s = .next { s with
        rate :=
          match node with
          | .m250Sel => o.parent
          | .m250Div => o.parent / (o.div : Rat)
          | .fixedDiv2 => o.parent / (o.div : Rat) / 2
          | .rgmiiTxEn => o.parent / (o.div : Rat) / 2
        env := { s.env with nRate := s.env.nRate + 1 }
        pos := s.pos + 1 }) ∧
  (∀ (s : State) (n hz : Nat), s.agent = .host → s.chain = .built n → 0 < hz →
    ReferenceResolver s →
    let parent := if s.reg0.getLsbD 4 then s.p1 else s.p0
    exec (.clkRoundRate .rgmiiTxEn hz) s = .next { s with
      rate := parent / (roundClosest parent (2 * (hz : Rat)) : Rat) / 2
      env := { s.env with nRate := s.env.nRate + 1 }
      pos := s.pos + 1 }) ∧
  (∀ (s : State) (node : Node) (hz : Nat), s.agent = .host → (s.chain = .none ∨ hz = 0) →
    exec (.clkRoundRate node hz) s =
      .refused (if s.chain = .none then .noChain else .rateZero))

/-- R79, R96: with a chain, CLK.SET_PARENT m250_sel, #i for i in 0, 1 completes: it writes bit 4 and
nothing else. Another index, another node (R79), or no chain is refused; which is named where several
apply is the model's choice (log 25). -/
def Obligations.SetParentWritesSelect : Prop :=
  (∀ (s : State) (n i : Nat), HostAlone s → s.chain = .built n → i < 2 →
    exec (.clkSetParent .m250Sel i) s =
      .next (s.afterMw 0x00000010 (BitVec.ofNat 32 (16 * i))).advance ∧
    selBit (s.afterMw 0x00000010 (BitVec.ofNat 32 (16 * i))).reg0 = decide (i = 1)) ∧
  (∀ (s : State) (node : Node) (i : Nat), s.agent = .host →
    (node ≠ .m250Sel → exec (.clkSetParent node i) s = .refused (.wrongNode node)) ∧
    (s.chain = .none → exec (.clkSetParent .m250Sel i) s = .refused .noChain) ∧
    (s.chain ≠ .none → 2 ≤ i → exec (.clkSetParent .m250Sel i) s = .refused (.badParent i)))

/-- R79, R97: with a chain, CLK.SET_DIV m250_div, #d for d in 2 to 7 completes: it writes the raw
value d into bits [9:7] and nothing else. Another divisor, another node (R79), or no chain is refused;
which is named where several apply is the model's choice (log 25). -/
def Obligations.SetDivWritesDivisor : Prop :=
  (∀ (s : State) (n d : Nat), HostAlone s → s.chain = .built n → 2 ≤ d → d ≤ 7 →
    exec (.clkSetDiv .m250Div d) s =
      .next (s.afterMw 0x00000380 (BitVec.ofNat 32 (128 * d))).advance ∧
    divRaw (s.afterMw 0x00000380 (BitVec.ofNat 32 (128 * d))).reg0 = d) ∧
  (∀ (s : State) (node : Node) (d : Nat), s.agent = .host →
    (node ≠ .m250Div → exec (.clkSetDiv node d) s = .refused (.wrongNode node)) ∧
    (s.chain = .none → exec (.clkSetDiv .m250Div d) s = .refused .noChain) ∧
    (s.chain ≠ .none → (d < 2 ∨ 7 < d) →
      exec (.clkSetDiv .m250Div d) s = .refused (.badDivisor d)))

/-- R98, R99: a CLK.SET_RATE of HOST, alone on the bus, that the environment does not fail completes in
a member of `Outcomes(R)`: PRG_ETH0 ends with its select and its divisor, the parents with its rates,
no other bit is written, at most two masked writes are issued, and nothing else changes. And no member
of `Outcomes(R)` is left out: for each there is an environment under which CLK.SET_RATE ends in it,
with no rate set of DATAPATH under way. -/
def Obligations.SetRateEndsInAnOutcome : Prop :=
  (∀ (s : State) (n hz : Nat), HostAlone s → s.chain = .built n → 0 < hz → s.env.failAt 0 = false →
    ∃ t o, exec (.clkSetRate .rgmiiTxEn hz) s = .next t ∧ Outcomes s (2 * (hz : Rat)) o ∧
      selBit t.reg0 = o.sel ∧ divRaw t.reg0 = o.div ∧
      t.reg0 &&& ~~~rateBits = s.reg0 &&& ~~~rateBits ∧
      (t.txns.length = s.txns.length ∨ t.txns.length = s.txns.length + 2 ∨
        t.txns.length = s.txns.length + 4) ∧
      t = { s with
        reg0 := t.reg0
        p0 := o.p0
        p1 := o.p1
        t := t.t
        txns := t.txns
        env := { s.env with
          nFail := s.env.nFail + 1
          nRate := s.env.nRate + 1
          nGap := t.env.nGap }
        pos := s.pos + 1 }) ∧
  (∀ (s : State) (n hz : Nat) (o : RateOutcome), s.agent = .host → s.dpJob = [] →
    s.chain = .built n → 0 < hz → Outcomes s (2 * (hz : Rat)) o →
    ∃ e t, exec (.clkSetRate .rgmiiTxEn hz) { s with env := e } = .next t ∧
      selBit t.reg0 = o.sel ∧ divRaw t.reg0 = o.div ∧ t.p0 = o.p0 ∧ t.p1 = o.p1)

/-- R100: under the reference resolver CLK.SET_RATE performs exactly one CLK.SET_DIV, with the
divisor RoundClosest(P_s, 2R), keeps the select and the parents, and succeeds. -/
def Obligations.ReferenceResolverSetsOneDivisor : Prop :=
  ∀ (s : State) (n hz : Nat), HostAlone s → s.chain = .built n → 0 < hz → s.env.failAt 0 = false →
    ReferenceResolver s →
    let d := roundClosest (if s.reg0.getLsbD 4 then s.p1 else s.p0) (2 * (hz : Rat))
    ∃ t, exec (.clkSetRate .rgmiiTxEn hz) s = .next t ∧
      t = { (s.afterMw 0x00000380 (BitVec.ofNat 32 (128 * d))).advance with
        env := { s.env with
          nFail := s.env.nFail + 1
          nRate := s.env.nRate + 1
          nGap := t.env.nGap } } ∧
      2 ≤ d ∧ d ≤ 7 ∧ divRaw t.reg0 = d

/-- R79, R98, R140: where the environment fails the request, nothing of the block changes. For HOST the
result becomes Failed(RateSetFailed); DATAPATH alone is told, and the result stays Programmed.
That HOST's failure names the stage CLK.SET_RATE is the model's choice (log 15). A request of 0 Hz,
on another node (R79), or without a chain is refused; which is named where several apply is the model's
choice (log 25). -/
def Obligations.RateSetFailureChangesNoRegister : Prop :=
  (∀ (s : State) (n hz : Nat), s.chain = .built n → 0 < hz → s.env.failAt 0 = true →
    (s.agent = .host →
      exec (.clkSetRate .rgmiiTxEn hz) s =
        .next { s.failedWith .rateSetFailed .clkSetRate with
          env := { s.env with nFail := s.env.nFail + 1 } }) ∧
    (s.agent = .datapath → s.result = .programmed →
      exec (.clkSetRate .rgmiiTxEn hz) s =
        .next { s with
          dpError := some .rateSetFailed
          env := { s.env with nFail := s.env.nFail + 1 } })) ∧
  (∀ (s : State) (node : Node) (hz : Nat), s.agent = .host →
    (node ≠ .rgmiiTxEn → exec (.clkSetRate node hz) s = .refused (.wrongNode node)) ∧
    (s.chain = .none → exec (.clkSetRate .rgmiiTxEn hz) s = .refused .noChain) ∧
    (s.chain ≠ .none → exec (.clkSetRate .rgmiiTxEn 0) s = .refused .rateZero))

/-- R54, R98, R103, R134: once the result is Programmed, with a chain, DATAPATH's three rate
operations on `rgmii_tx_en` complete: the query and the rounding change only what DATAPATH is told; a
rate set ends in a member of `Outcomes(R)` and writes no other bit. HOST's position and result stay. A
rate set under other masters' writes in its gaps (R54) completes too: it takes the outcome of the
choice drawn, and of the two fields the one handled last ends as the outcome has it (log 8, 9). For 0
Hz, or without a chain, they are refused (which of the two is named first: log 25). -/
def Obligations.DatapathRateOperationsComplete : Prop :=
  (∀ (s : State) (n hz : Nat), s.agent = .datapath → s.result = .programmed → s.chain = .built n →
    0 < hz →
    let raw := ((s.reg0 >>> 7) &&& 7).toNat
    let parent := if s.reg0.getLsbD 4 then s.p1 else s.p0
    (exec (.clkGetRate .rgmiiTxEn) s = .next { s with
      dpT := s.reg0
      dpRate := parent / ((if raw < 2 then 1 else raw : Nat) : Rat) / 2
      txns := s.txns ++ [⟨.datapath, .read, 0, s.reg0⟩]
      dpError := none }) ∧
    (∃ o, Outcomes s (2 * (hz : Rat)) o ∧
      exec (.clkRoundRate .rgmiiTxEn hz) s = .next { s with
        dpRate := o.parent / (o.div : Rat) / 2
        env := { s.env with nRate := s.env.nRate + 1 }
        dpError := none }) ∧
    (ExclusiveInit s → s.env.failAt 0 = false →
      ∃ t o, exec (.clkSetRate .rgmiiTxEn hz) s = .next t ∧ Outcomes s (2 * (hz : Rat)) o ∧
        selBit t.reg0 = o.sel ∧ divRaw t.reg0 = o.div ∧
        t.reg0 &&& ~~~rateBits = s.reg0 &&& ~~~rateBits ∧
        t = { s with
          reg0 := t.reg0
          p0 := o.p0
          p1 := o.p1
          dpT := t.dpT
          dpError := none
          txns := t.txns
          env := t.env }) ∧
    (s.dpJob = [] → s.env.failAt 0 = false →
      let o := rateOutcome s (2 * (hz : Rat)) s.env.rateNow
      ∃ t, exec (.clkSetRate .rgmiiTxEn hz) s = .next t ∧ Outcomes s (2 * (hz : Rat)) o ∧
        (if s.env.rateNow.divFirst = true then selBit t.reg0 = o.sel else divRaw t.reg0 = o.div) ∧
        t = { s with
          reg0 := t.reg0
          p0 := o.p0
          p1 := o.p1
          dpT := t.dpT
          dpError := none
          txns := t.txns
          env := { s.env with
            nFail := s.env.nFail + 1
            nRate := s.env.nRate + 1
            nGap := t.env.nGap } })) ∧
  (∀ (s : State) (hz : Nat), s.agent = .datapath → s.result = .programmed →
    (s.chain = .none → exec (.clkGetRate .rgmiiTxEn) s = .refused .noChain) ∧
    ((s.chain = .none ∨ hz = 0) →
      exec (.clkRoundRate .rgmiiTxEn hz) s =
        .refused (if s.chain = .none then .noChain else .rateZero) ∧
      exec (.clkSetRate .rgmiiTxEn hz) s =
        .refused (if s.chain = .none then .noChain else .rateZero)))

/-- R134, R144: every other operation of DATAPATH, and each of the three before the result is
Programmed or on another node, is refused. That WR.ETH1, which R84 refuses too, is refused by R84's
name is the model's choice (log 25); so is that the three are refused too where a later raise of HOST
has made the result Failed (log 39). -/
def Obligations.OtherDatapathOperationsAreRefused : Prop :=
  ∀ (i : Instr) (s : State), s.agent = .datapath →
    (s.result ≠ .programmed ∨
      (i ≠ .clkGetRate .rgmiiTxEn ∧ ∀ hz, i ≠ .clkRoundRate .rgmiiTxEn hz ∧
        i ≠ .clkSetRate .rgmiiTxEn hz)) →
    exec i s = .refused .agentForbidden ∨
      (∃ v, i = .wrEth1 v) ∧ exec i s = .refused .wrEth1OutOfScope

/-- R79, R101: CLK.ENABLE on a chain that is not enabled starts the parents, writes the gate bit 1 and
counts one; on an enabled chain it only counts; where the environment fails it, nothing is written and
the count stays. On another node (R79) or without a chain it is refused. That a failure names the
stage CLK.ENABLE (log 15), and which refusal is named where both apply (log 25), is the model's
choice. -/
def Obligations.EnableOpensGateOnce : Prop :=
  (∀ s : State, HostAlone s → s.chain = .built 0 → s.env.failAt 0 = false →
    exec (.clkEnable .rgmiiTxEn) s = .next { (s.afterMw 0x00000400 0x00000400).advance with
      run0 := true
      run1 := true
      chain := .built 1
      env := { s.env with nFail := s.env.nFail + 1, nGap := s.env.nGap + 2 } }) ∧
  (∀ (s : State) (n : Nat), s.agent = .host → s.chain = .built (n + 1) → s.env.failAt 0 = false →
    exec (.clkEnable .rgmiiTxEn) s = .next { s.advance with
      chain := .built (n + 2)
      env := { s.env with nFail := s.env.nFail + 1 } }) ∧
  (∀ (s : State) (n : Nat), s.agent = .host → s.chain = .built n → s.env.failAt 0 = true →
    exec (.clkEnable .rgmiiTxEn) s =
      .next { s.failedWith (.clockEnableFailed .rgmiiTx) .clkEnable with
        env := { s.env with nFail := s.env.nFail + 1 } }) ∧
  (∀ (s : State) (node : Node), s.agent = .host →
    (node ≠ .rgmiiTxEn → exec (.clkEnable node) s = .refused (.wrongNode node)) ∧
    (s.chain = .none → exec (.clkEnable .rgmiiTxEn) s = .refused .noChain))

/-- R79, R102: only the last outstanding disable writes the gate bit 0, and then whether each parent
goes on running is a draw: each pair of answers is reached under some environment. An earlier one only
counts; with none outstanding, on another node (R79), or without a chain it is refused; which is named
where several apply is the model's choice (log 25). -/
def Obligations.LastDisableClosesGate : Prop :=
  (∀ s : State, HostAlone s → s.chain = .built 1 →
    ∃ t r0 r1, exec (.clkDisable .rgmiiTxEn) s = .next t ∧
      t = { (s.afterMw 0x00000400 0x00000000).advance with
        run0 := r0
        run1 := r1
        chain := .built 0
        env := { s.env with nParents := s.env.nParents + 1, nGap := s.env.nGap + 2 } } ∧
      t.freqOut = .stopped) ∧
  (∀ (s : State) (r0 r1 : Bool), s.agent = .host → s.chain = .built 1 →
    ∃ e t, exec (.clkDisable .rgmiiTxEn) { s with env := e } = .next t ∧
      t.run0 = r0 ∧ t.run1 = r1) ∧
  (∀ (s : State) (n : Nat), s.agent = .host → s.chain = .built (n + 2) →
    exec (.clkDisable .rgmiiTxEn) s = .next { s.advance with chain := .built (n + 1) }) ∧
  (∀ (s : State) (node : Node), s.agent = .host →
    (node ≠ .rgmiiTxEn → exec (.clkDisable node) s = .refused (.wrongNode node)) ∧
    (s.chain = .none → exec (.clkDisable .rgmiiTxEn) s = .refused .noChain) ∧
    (s.chain = .built 0 → exec (.clkDisable .rgmiiTxEn) s = .refused .noEnableOutstanding))

/-- R104: CHAIN.RELEASE gates an enabled chain off, however many enables are outstanding, with one
masked write of bit 10; a chain that was never enabled is released with no write; either way the chain
is none and no other field of PRG_ETH0 changes. Whether each parent goes on running after the gating
off is a draw: each pair of answers is reached under some environment. That the parents of a chain
that was never enabled go on as they were is the model's choice (log 6). Without a chain it is
refused. -/
def Obligations.ChainReleaseGatesOffOnce : Prop :=
  (∀ s : State, s.agent = .host → s.chain = .built 0 →
    exec .chainRelease s = .next { s.advance with chain := .none, stages := [] }) ∧
  (∀ (s : State) (n : Nat), HostAlone s → s.chain = .built (n + 1) →
    ∃ r0 r1, exec .chainRelease s = .next { (s.afterMw 0x00000400 0x00000000).advance with
      chain := .none
      stages := []
      run0 := r0
      run1 := r1
      env := { s.env with nParents := s.env.nParents + 1, nGap := s.env.nGap + 3 } }) ∧
  (∀ (s : State) (n : Nat) (r0 r1 : Bool), s.agent = .host → s.chain = .built (n + 1) →
    ∃ e t, exec .chainRelease { s with env := e } = .next t ∧ t.run0 = r0 ∧ t.run1 = r1) ∧
  (∀ s : State, s.agent = .host → s.chain = .none →
    exec .chainRelease s = .refused .noChain)

/-- R50, R54, R148: whatever other agents do in the gaps of an operation of HOST that is one masked
write (CLK.SET_PARENT, CLK.SET_DIV, the first CLK.ENABLE, the last CLK.DISABLE, PHYMODE.APPLY and the
field rows), the field it writes ends as it was meant to, and the other bits are those of the word
that stood there when it read (after the first gap: `gap 0`, log 8, 9): a write that lands between the
two halves is lost on them. That a field row is an operation, one masked write, and on its own family's
instance only, is the model's choice (log 10, 11). For the operations of several masked writes, and the
releases, see SequencesCompleteUnderInterference. -/
def Obligations.InterferenceDoesNotReachTheWrittenField : Prop :=
  (∀ (s : State) (n : Nat), s.agent = .host → s.chain = .built n →
    (∀ i, i < 2 → ∃ t, exec (.clkSetParent .m250Sel i) s = .next t ∧
      t.reg0 = ((s.gap 0).reg0 &&& ~~~0x00000010) ||| BitVec.ofNat 32 (16 * i)) ∧
    (∀ d, 2 ≤ d → d ≤ 7 → ∃ t, exec (.clkSetDiv .m250Div d) s = .next t ∧
      t.reg0 = ((s.gap 0).reg0 &&& ~~~0x00000380) ||| BitVec.ofNat 32 (128 * d)) ∧
    (n = 0 → s.env.failAt 0 = false → ∃ t, exec (.clkEnable .rgmiiTxEn) s = .next t ∧
      t.reg0 = (({ s.popFail with run0 := true, run1 := true } : State).gap 0).reg0 ||| 0x00000400 ∧
      t.chain = .built 1) ∧
    (n = 1 → ∃ t, exec (.clkDisable .rgmiiTxEn) s = .next t ∧
      t.reg0 = (({ s with chain := .built 0 } : State).gap 0).reg0 &&& ~~~0x00000400 ∧
      t.chain = .built 0)) ∧
  (∀ (s : State) (c : Cfg), s.agent = .host → s.cfg = some c → (∀ x, c.mode ≠ .other x) →
    ∃ t, exec .phymodeApply s = .next t ∧
      (c.family = .legacy → t.reg0 = ((s.gap 0).reg0 &&& ~~~0x1) ||| (if c.mode = .rmii then 0 else 1)) ∧
      (c.family = .extMode → t.reg0 = ((s.gap 0).reg0 &&& ~~~0x7) ||| (if c.mode = .rmii then 4 else 1))) ∧
  (∀ (s : State) (r : FieldRow), s.agent = .host → r ∈ fieldRows → r.inFamily s.params.family = true →
    ∃ t, exec r.instr s = .next t ∧ t.reg0 = ((s.gap 0).reg0 &&& ~~~r.mask) ||| r.mtch)

/-- R94: RoundClosest gives a divisor of the table whose rate is at least as close to the target as
any other's, and on a tie the larger. -/
def Obligations.RoundClosestIsClosest : Prop :=
  ∀ P T : Rat, 0 < P → 0 < T →
    2 ≤ roundClosest P T ∧ roundClosest P T ≤ 7 ∧
    ∀ d : Nat, 2 ≤ d → d ≤ 7 →
      |P / (roundClosest P T : Rat) - T| ≤ |P / (d : Rat) - T| ∧
      (|P / (d : Rat) - T| = |P / (roundClosest P T : Rat) - T| → d ≤ roundClosest P T)

/-- R35, R88, R90, R91, R92: with the selected parent running, whatever the gate, the select node runs
at P, the divider at P / hw_div and the halving stage at P / (2 · hw_div); so does the TX clock output
with the gate on. With the gate off the output is stopped, and with the selected parent stopped every
node is. -/
def Obligations.OutputClockFrequency : Prop :=
  ∀ s : State,
    let sel := s.reg0.getLsbD 4
    let parent := if sel then s.p1 else s.p0
    let raw := ((s.reg0 >>> 7) &&& 7).toNat
    let hw : Nat := if raw < 2 then Config.divLowHw else raw
    (s.parentRuns sel = true →
      s.freqSel = .hz parent ∧ s.freqDiv = .hz (parent / (hw : Rat)) ∧
      s.freqFixed = .hz (parent / (2 * (hw : Rat)))) ∧
    (s.parentRuns sel = true → s.reg0.getLsbD 10 = true →
      s.freqOut = .hz (parent / (2 * (hw : Rat)))) ∧
    (s.parentRuns sel = false → s.freqSel = .stopped ∧ s.freqDiv = .stopped ∧
      s.freqFixed = .stopped ∧ s.freqOut = .stopped) ∧
    (s.reg0.getLsbD 10 = false → s.freqOut = .stopped) ∧
    (s.chain.enabled = true → s.parentRuns sel = true)

/-! ## Mode and timing -/

/-- R105, R106, R107, R108: with a configuration held, PHYMODE.APPLY for a supported mode completes
with exactly one masked write: in family Legacy bit 0 (1 for the RGMII family, 0 for RMII), in family
ExtMode bits [2:0] (1 or 4); nothing else changes. On an instance of the configured family the
interface select follows. For any other mode it raises InvalidPhyMode, which names the mode, and
performs no bus transaction: nothing but the outcome of the run changes. -/
def Obligations.PhyModeApplyWritesModeField : Prop :=
  (∀ (s : State) (c : Cfg), HostAlone s → s.cfg = some c → (∀ x, c.mode ≠ .other x) →
    let rmii := c.mode = .rmii
    ∃ t, exec .phymodeApply s = .next t ∧
      (c.family = .legacy → t = (s.afterMw 0x1 (if rmii then 0 else 1)).advance) ∧
      (c.family = .extMode → t = (s.afterMw 0x7 (if rmii then 4 else 1)).advance) ∧
      (s.params.family = c.family → t.outputs.phyIf = if rmii then .rmii else .rgmii)) ∧
  (∀ (s : State) (c : Cfg) (x : String), s.agent = .host → s.cfg = some c → c.mode = .other x →
    exec .phymodeApply s = .next (s.failedWith (.invalidPhyMode (.other x)) .phymodeApply))

/-- R113, R131: ADJ.ENABLE with the adjustment clock present starts it, unless the environment fails
it; neither issues a transaction. Failing, it leaves `adj_enabled` as it was, what an earlier one did
included (in TIMING.APPLY it does not: see TimingFailureKeepsWritesDone). With the clock absent it
raises MissingMandatoryClock; that reading of a standalone ADJ.ENABLE, and the stage it names, are the
model's (log 15, 24). -/
def Obligations.AdjEnableStartsTheClock : Prop :=
  ∀ s : State, s.agent = .host →
    (s.adjClk = .present → s.env.failAt 0 = false →
      exec .adjClkEnable s = .next { s.advance with
        adjEnabled := true
        env := { s.env with nFail := s.env.nFail + 1 } }) ∧
    (s.adjClk = .present → s.env.failAt 0 = true →
      exec .adjClkEnable s = .next { s.failedWith (.clockEnableFailed .adjustment) .adjEnable with
        env := { s.env with nFail := s.env.nFail + 1 } }) ∧
    (s.adjClk = .absent →
      exec .adjClkEnable s = .next (s.failedWith (.missingMandatoryClock .adjustment) .adjEnable))

/-- The combined delay value of R112, written out: the tx field in RGMII and RGMII_RXID, the rx bits
in RGMII and RGMII_TXID, else 0. -/
def delayValue (mode : PhyMode) (tx rx : Word) : Word :=
  (if mode = .rgmii ∨ mode = .rgmiiRxid then ((tx >>> 1) <<< 5) &&& 0x60 else 0) |||
    (if (mode = .rgmii ∨ mode = .rgmiiTxid) ∧ rx = 2 then 0x6000 else 0)

/-- Whether step 4 asks for the adjustment clock (R113), under either value of ADJ_CHECK_ON. -/
def needsAdjClock (s : State) (mode : PhyMode) (rx : Word) : Prop :=
  rx = 2 ∧ (s.params.adjCheckOn = .combined → mode = .rgmii ∨ mode = .rgmiiTxid)

/-- The mask of the delay write (R114), under either reading. -/
def delayMaskWord (s : State) : Word :=
  if s.params.delayMask = .clearsCalibration then 0x01FFE060 else 0x00006060

/-- The keep mask and the value of the mode field (R106, R107). -/
def modeKeep (fam : Family) : Word := if fam = .legacy then 0xFFFFFFFE else 0xFFFFFFF8

def modeValue (fam : Family) (mode : PhyMode) : Word :=
  if mode = .rmii then (if fam = .legacy then 0 else 4) else 1

/-- R109 to R117: in the RGMII family, alone on the bus and where nothing fails, TIMING.APPLY
completes: it writes the delay value under the delay mask, clears the inversion, ends with the select,
the divisor and the parents' rates of a member of Outcomes(125 MHz), whatever the environment chooses,
opens the gate if the chain was not enabled, and sets the reference enable; the adjustment clock is
started exactly where step 4 asks for it. Under the reference resolver the select is kept and the
divisor is RoundClosest(P_s, 250 MHz). -/
def Obligations.TimingApplyRgmiiFamily : Prop :=
  ∀ (s : State) (c : Cfg) (n : Nat), HostAlone s → s.cfg = some c → s.chain = .built n →
    isRgmiiFamily c.mode = true → (c.rxDelay = 0 ∨ c.rxDelay = 2) →
    (needsAdjClock s c.mode c.rxDelay → c.adjClk = .present) → NoFailure s 3 →
    let kept := (s.reg0 &&& ~~~(delayMaskWord s) &&& 0xFFFFF7FF) |||
      delayValue c.mode c.txDelay c.rxDelay ||| (if n = 0 then 0x00001400 else 0x00001000)
    ∃ t o, exec .timingApply s = .next t ∧ Outcomes s 250000000 o ∧
      t.reg0 &&& ~~~rateBits = kept &&& ~~~rateBits ∧ selBit t.reg0 = o.sel ∧ divRaw t.reg0 = o.div ∧
      (t.adjEnabled = true ↔ s.adjEnabled = true ∨ needsAdjClock s c.mode c.rxDelay) ∧
      t = { s with
        reg0 := t.reg0
        p0 := o.p0
        p1 := o.p1
        adjEnabled := t.adjEnabled
        chain := .built (n + 1)
        run0 := if n = 0 then true else s.run0
        run1 := if n = 0 then true else s.run1
        t := t.t
        txns := t.txns
        env := t.env
        pos := s.pos + 1 } ∧
      (∃ k, k ≤ 2 ∧ t.txns.length = s.txns.length + (if n = 0 then 8 else 6) + 2 * k) ∧
      (ReferenceResolver s →
        let d := roundClosest (if s.reg0.getLsbD 4 then s.p1 else s.p0) 250000000
        t.reg0 = (kept &&& 0xFFFFFC7F) ||| BitVec.ofNat 32 (128 * d) ∧ t.p0 = s.p0 ∧ t.p1 = s.p1 ∧
        t.txns.length = s.txns.length + (if n = 0 then 10 else 8))

/-- R109, R112 to R114, R116, R117: in RMII, TIMING.APPLY completes with three masked writes: the
delay fields are cleared, the inversion and the reference enable are set; the chain is not touched: no
rate is requested and it is not enabled. The adjustment clock is started exactly where step 4 asks for
it (rx 2 under ADJ_CHECK_ON = rx_config). That the parents go on as they were where the chain is not
enabled is the model's choice (log 6). -/
def Obligations.TimingApplyRmii : Prop :=
  ∀ (s : State) (c : Cfg) (n : Nat), HostAlone s → s.cfg = some c → s.chain = .built n →
    c.mode = .rmii → (c.rxDelay = 0 ∨ c.rxDelay = 2) →
    (needsAdjClock s c.mode c.rxDelay → c.adjClk = .present ∧ s.env.failAt 0 = false) →
    ∃ t, exec .timingApply s = .next t ∧
      t.reg0 = (s.reg0 &&& ~~~(delayMaskWord s)) ||| 0x00001800 ∧
      (t.adjEnabled = true ↔ s.adjEnabled = true ∨ needsAdjClock s c.mode c.rxDelay) ∧
      t = { s with
        reg0 := t.reg0
        adjEnabled := t.adjEnabled
        t := t.t
        txns := t.txns
        env := { s.env with nFail := t.env.nFail, nGap := s.env.nGap + 6 }
        pos := s.pos + 1 } ∧
      t.txns.length = s.txns.length + 6

/-- R109, R111, R112: TIMING.APPLY before its first write: a mode of neither kind raises InvalidPhyMode
with nothing changed but the outcome of the run; an rx delay other than 0 and 2, and a chain that is
not built, are refused. That it and PHYMODE.APPLY are refused where no configuration is held, and in
what order the refusals are given, is the model's choice (log 25). -/
def Obligations.TimingApplyRejectsBeforeWriting : Prop :=
  ∀ s : State, s.agent = .host →
    (s.cfg = none → exec .timingApply s = .refused .noConfiguration ∧
      exec .phymodeApply s = .refused .noConfiguration) ∧
    ∀ c : Cfg, s.cfg = some c →
      (s.chain = .none → exec .timingApply s = .refused .noChain) ∧
      (s.chain ≠ .none → c.rxDelay ≠ 0 → c.rxDelay ≠ 2 →
        exec .timingApply s = .refused (.rxDelayOutside c.rxDelay)) ∧
      (s.chain ≠ .none → (c.rxDelay = 0 ∨ c.rxDelay = 2) → ∀ x, c.mode = .other x →
        exec .timingApply s = .next (s.failedWith (.invalidPhyMode (.other x)) .timingApply))

/-- R113, R118: what a failing TIMING.APPLY, alone on the bus, leaves. A missing or failing adjustment
clock leaves PRG_ETH0 and the parents as they were, the failing one `adj_enabled = false`;
RateSetFailed leaves the delay write and the cleared inversion; a failing enable of the chain leaves
those and the select, the divisor and the parents' rates of a member of Outcomes(125 MHz); in the last
two the adjustment clock is as step 4 left it. Whatever it fails by, the gate and the reference enable
keep their value, the stage is TIMING.APPLY, the position stays, and nothing else changes. -/
def Obligations.TimingFailureKeepsWritesDone : Prop :=
  ∀ (s t : State) (c : Cfg) (kind : ErrKind) (stage : Stage),
    HostAlone s → s.cfg = some c → (∀ k g, s.result ≠ .failed k g) → (∀ x, c.mode ≠ .other x) →
    exec .timingApply s = .next t → t.result = .failed kind stage →
    let written := (s.reg0 &&& ~~~(delayMaskWord s) &&& 0xFFFFF7FF) |||
      delayValue c.mode c.txDelay c.rxDelay
    stage = .timingApply ∧ t.reg0 &&& 0x00001400 = s.reg0 &&& 0x00001400 ∧
    t = { s with
      reg0 := t.reg0
      p0 := t.p0
      p1 := t.p1
      adjEnabled := t.adjEnabled
      result := .failed kind stage
      stopped := true
      t := t.t
      txns := t.txns
      env := t.env } ∧
    (((kind = .missingMandatoryClock .adjustment ∧ t.adjEnabled = s.adjEnabled ∨
          kind = .clockEnableFailed .adjustment ∧ t.adjEnabled = false) ∧
        t.reg0 = s.reg0 ∧ t.txns = s.txns ∧ t.p0 = s.p0 ∧ t.p1 = s.p1) ∨
      (kind = .rateSetFailed ∧ t.reg0 = written ∧ t.p0 = s.p0 ∧ t.p1 = s.p1 ∧
        (t.adjEnabled = true ↔ s.adjEnabled = true ∨ needsAdjClock s c.mode c.rxDelay)) ∨
      (kind = .clockEnableFailed .rgmiiTx ∧ t.reg0 &&& ~~~rateBits = written &&& ~~~rateBits ∧
        (∃ o, Outcomes s 250000000 o ∧ selBit t.reg0 = o.sel ∧ divRaw t.reg0 = o.div ∧
          t.p0 = o.p0 ∧ t.p1 = o.p1) ∧
        (t.adjEnabled = true ↔ s.adjEnabled = true ∨ needsAdjClock s c.mode c.rxDelay)))

/-! ## The configuration sequence -/

/-- R119, R142: ORCH.INIT in the RGMII family, alone on the bus, where every lookup succeeds and
nothing fails, ends Programmed with PRG_ETH0, the chain, the adjustment clock and the TX clock as R142
gives them, under either reading of the delay mask: in general with the select, the divisor and the
parents' rates of a member of Outcomes(125 MHz), and under the reference resolver as R142's table. The
counts of transactions rest on CHAIN.BUILD issuing no RD.ETH0 (log 26), and an adjustment clock
started before the run on staying started (log 40): both are the model's choice. -/
def Obligations.OrchInitProgramsRgmiiFamily : Prop :=
  ∀ (s : State) (mode : PhyMode), HostAlone s → s.result = .idle → s.desc.namesFamily = true →
    phyModeOf s.desc.mode = mode → isRgmiiFamily mode = true →
    (s.desc.rxDelay.getD 0 = 0 ∨ s.desc.rxDelay.getD 0 = 2) →
    (s.env.adjNow = .present ∨
      s.env.adjNow = .absent ∧ ¬ needsAdjClock s mode (s.desc.rxDelay.getD 0)) →
    s.env.lookupAt 0 = .ok → s.env.lookupAt 1 = .ok → NoFailure s 7 →
    let fam := s.params.family
    let tx := s.desc.txDelay.getD 2
    let rx := s.desc.rxDelay.getD 0
    let kept := (s.reg0 &&& modeKeep fam &&& ~~~(delayMaskWord s) &&& 0xFFFFF7FF) |||
      0x00001401 ||| delayValue mode tx rx
    ∃ t o, exec .orchInit s = .next t ∧ Outcomes s 250000000 o ∧ t.result = .programmed ∧
      t.reg0 &&& ~~~rateBits = kept &&& ~~~rateBits ∧ selBit t.reg0 = o.sel ∧ divRaw t.reg0 = o.div ∧
      t.p0 = o.p0 ∧ t.p1 = o.p1 ∧
      t.chain = .built 1 ∧ t.freqOut = .hz (o.parent / (2 * (o.div : Rat))) ∧
      (t.adjEnabled = true ↔ s.adjEnabled = true ∨ needsAdjClock s mode rx) ∧
      t.cfg = some ⟨mode, fam, tx, rx, if s.env.adjNow = .present then .present else .absent⟩ ∧
      t.reg1 = s.reg1 ∧ t.pos = s.pos + 1 ∧
      (∃ k, k ≤ 2 ∧ t.txns.length = s.txns.length + 10 + 2 * k) ∧
      (ReferenceResolver s →
        let parent := if s.reg0.getLsbD 4 then s.p1 else s.p0
        let d := roundClosest parent 250000000
        t.reg0 = (kept &&& 0xFFFFFC7F) ||| BitVec.ofNat 32 (128 * d) ∧
        t.freqOut = .hz (parent / (2 * (d : Rat))) ∧ t.p0 = s.p0 ∧ t.p1 = s.p1 ∧
        t.txns.length = s.txns.length + 12)

/-- R119, R122, R142: ORCH.INIT in RMII, where every lookup succeeds and nothing fails, ends
Programmed with four masked writes and PRG_ETH0 as R142's table gives it; the chain is built and not
enabled; the adjustment clock is started exactly where step 4 asks for it (rx 2 under ADJ_CHECK_ON =
rx_config). Before the result is idle ORCH.INIT is refused, and so is a description whose selector
names neither family. The count of transactions rests on CHAIN.BUILD issuing no RD.ETH0 (log 26), an
adjustment clock started before the run stays started (log 40), and the parents, whose running the
chain that is not enabled leaves open, go on as they were (log 6): all three are the
model's choice. -/
def Obligations.OrchInitProgramsRmii : Prop :=
  (∀ s : State, HostAlone s → s.result = .idle → s.desc.namesFamily = true →
    phyModeOf s.desc.mode = .rmii → (s.desc.rxDelay.getD 0 = 0 ∨ s.desc.rxDelay.getD 0 = 2) →
    (s.env.adjNow = .present ∨ s.env.adjNow = .absent) →
    (needsAdjClock s .rmii (s.desc.rxDelay.getD 0) →
      s.env.adjNow = .present ∧ s.env.failAt 4 = false) →
    s.env.lookupAt 0 = .ok → s.env.lookupAt 1 = .ok → NoFailure s 4 →
    let fam := s.params.family
    ∃ t, exec .orchInit s = .next t ∧ t.result = .programmed ∧
      t.reg0 = (s.reg0 &&& modeKeep fam &&& ~~~(delayMaskWord s)) |||
        modeValue fam .rmii ||| 0x00001800 ∧
      t.chain = .built 0 ∧
      (t.adjEnabled = true ↔ s.adjEnabled = true ∨ needsAdjClock s .rmii (s.desc.rxDelay.getD 0)) ∧
      t.reg1 = s.reg1 ∧ t.p0 = s.p0 ∧ t.p1 = s.p1 ∧ t.run0 = s.run0 ∧ t.run1 = s.run1 ∧
      t.pos = s.pos + 1 ∧ t.txns.length = s.txns.length + 8) ∧
  (∀ s : State, s.agent = .host → s.result ≠ .idle → exec .orchInit s = .refused .notIdle) ∧
  (∀ s : State, s.agent = .host → s.result = .idle → s.desc.namesFamily = false →
    exec .orchInit s = .refused .unknownFamily)

/-- R3, R119: the configuration that ORCH.INIT acquires. Its mode is the one the mode string names, any
other string giving Other; its family is FAMILY; the delays are the description's, or 2 and 0. Which
strings name the five modes is the model's choice (log 28). -/
def Obligations.ConfigurationIsTheDescriptions : Prop :=
  (∀ s t : State, exec .orchInit s = .next t →
    ∃ c, t.cfg = some c ∧ c.mode = phyModeOf s.desc.mode ∧ c.family = s.params.family ∧
      c.txDelay = s.desc.txDelay.getD 2 ∧ c.rxDelay = s.desc.rxDelay.getD 0) ∧
  (∀ text, (text = "rgmii" ∨ text = "RGMII" ↔ phyModeOf text = .rgmii) ∧
    (text = "rgmii-rxid" ∨ text = "rgmii_rxid" ∨ text = "RGMII_RXID" ↔ phyModeOf text = .rgmiiRxid) ∧
    (text = "rgmii-id" ∨ text = "rgmii_id" ∨ text = "RGMII_ID" ↔ phyModeOf text = .rgmiiId) ∧
    (text = "rgmii-txid" ∨ text = "rgmii_txid" ∨ text = "RGMII_TXID" ↔
      phyModeOf text = .rgmiiTxid) ∧
    (text = "rmii" ∨ text = "RMII" ↔ phyModeOf text = .rmii) ∧
    (∀ x, phyModeOf text = .other x → x = text))

/-- R54, R98, R104, R132, R142: the operations of several masked writes complete whatever other agents
do in their gaps, where the environment fails nothing (DATAPATH's requests may draw answers in
between, one for each). CLK.SET_RATE: of the outcome the environment chose, the field it handles last
(the select where the divider comes first) ends as the outcome has it, and so do the parents where no
other rate request can begin. TIMING.APPLY and ORCH.INIT: the reference enable, which is written last,
is set, and the chain, the adjustment clock and the outcome of the run are as R142 gives them (an
adjustment clock started before stays started: log 40). CHAIN.RELEASE and ORCH.RELEASE of an enabled
chain: the gate is cleared in the word that stood there when they read, then comes one more gap, and
the rest is as R104 and R132 give it (position 0, the list going on: log 18). What else PRG_ETH0 holds
then is the other agents' doing too (`gap`, log 8, 9). -/
def Obligations.SequencesCompleteUnderInterference : Prop :=
  ∀ s : State, s.agent = .host →
    (∀ n hz : Nat, s.chain = .built n → 0 < hz → s.env.failAt 0 = false →
      let o := rateOutcome s (2 * (hz : Rat)) s.env.rateNow
      ∃ t, exec (.clkSetRate .rgmiiTxEn hz) s = .next t ∧ Outcomes s (2 * (hz : Rat)) o ∧
        (if s.env.rateNow.divFirst = true then selBit t.reg0 = o.sel else divRaw t.reg0 = o.div) ∧
        (s.dpQueue = [] ∨ s.result ≠ .programmed → t.p0 = o.p0 ∧ t.p1 = o.p1) ∧
        t.chain = s.chain ∧ t.pos = s.pos + 1 ∧ t.result = s.result) ∧
    (∀ (c : Cfg) (n : Nat), s.cfg = some c → s.chain = .built n → (∀ x, c.mode ≠ .other x) →
      (c.rxDelay = 0 ∨ c.rxDelay = 2) → (needsAdjClock s c.mode c.rxDelay → c.adjClk = .present) →
      NoFailure s (3 + s.dpQueue.length) →
      ∃ t, exec .timingApply s = .next t ∧ refBit t.reg0 = true ∧
        t.chain = .built (if c.mode = .rmii then n else n + 1) ∧
        (t.adjEnabled = true ↔ s.adjEnabled = true ∨ needsAdjClock s c.mode c.rxDelay) ∧
        t.pos = s.pos + 1 ∧ t.result = s.result) ∧
    (∀ mode : PhyMode, s.result = .idle → s.desc.namesFamily = true → phyModeOf s.desc.mode = mode →
      (∀ x, mode ≠ .other x) → (s.desc.rxDelay.getD 0 = 0 ∨ s.desc.rxDelay.getD 0 = 2) →
      (s.env.adjNow = .present ∨
        s.env.adjNow = .absent ∧ ¬ needsAdjClock s mode (s.desc.rxDelay.getD 0)) →
      s.env.lookupAt 0 = .ok → s.env.lookupAt 1 = .ok → NoFailure s (7 + s.dpQueue.length) →
      ∃ t, exec .orchInit s = .next t ∧ t.result = .programmed ∧ refBit t.reg0 = true ∧
        t.chain = .built (if mode = .rmii then 0 else 1) ∧
        (t.adjEnabled = true ↔ s.adjEnabled = true ∨ needsAdjClock s mode (s.desc.rxDelay.getD 0)) ∧
        t.pos = s.pos + 1) ∧
    (∀ n : Nat, s.chain = .built (n + 1) →
      let w := s.disableTo 0
      w.reg0 = (({ s with chain := .built 0 } : State).gap 0).reg0 &&& ~~~0x00000400 ∧
      (∃ t, exec .chainRelease s = .next t ∧ t.reg0 = (w.gap 0).reg0 ∧ t.chain = .none ∧
        t.stages = [] ∧ t.adjEnabled = s.adjEnabled ∧ t.par0Held = s.par0Held ∧
        t.par1Held = s.par1Held ∧ t.adjHeld = s.adjHeld ∧ t.pos = s.pos + 1 ∧ t.result = s.result) ∧
      ((s.result = .programmed ∨ ∃ k g, s.result = .failed k g) →
        ∃ t, exec .orchRelease s = .next t ∧ t.reg0 = (w.gap 0).reg0 ∧ t.chain = .none ∧
          t.stages = [] ∧ t.adjEnabled = false ∧ t.par0Held = false ∧ t.par1Held = false ∧
          t.adjHeld = false ∧ t.result = .idle ∧ t.pos = 0 ∧ t.stopped = false ∧ t.cfg = s.cfg))

/-- R142, R145, R149: whatever the environment answers, a run that ends Programmed leaves the mode
field, the delay fields, the inversion, the reference enable and, in the RGMII family, the gate and
a divisor of the table as the configuration has them, keeps bit 3 and bits [31:25], clears the
calibration fields under the decided mask, and sets ADJ_ENABLE only with the adjustment clock
started. -/
def Obligations.ProgrammedRunSetsConfiguredFields : Prop :=
  ∀ s t : State, HostAlone s → exec .orchInit s = .next t → t.result = .programmed →
    let fam := s.params.family
    let mode := phyModeOf s.desc.mode
    (t.reg0 &&& ~~~(modeKeep fam) = modeValue fam mode) ∧
    (t.reg0 &&& 0x00006060 = delayValue mode (s.desc.txDelay.getD 2) (s.desc.rxDelay.getD 0)) ∧
    (invBit t.reg0 = decide (mode = .rmii)) ∧ refBit t.reg0 = true ∧
    (mode ≠ .rmii → gateBit t.reg0 = true ∧ 2 ≤ divRaw t.reg0 ∧ t.chain = .built 1) ∧
    (mode = .rmii → t.reg0 &&& 0x00000790 = s.reg0 &&& 0x00000790 ∧ t.chain = .built 0) ∧
    (t.reg0 &&& 0xFE000008 = s.reg0 &&& 0xFE000008) ∧
    (s.params.delayMask = .clearsCalibration → t.reg0 &&& 0x01FF8000 = 0) ∧
    (adjEnBit t.reg0 = true → t.adjEnabled = true)

/-- R120, R121, R122, R127, R130: ORCH.INIT reports the first error of the order of R130. An rx delay
outside 0 and 2 is rejected before any transaction, clock operation or draw: nothing changes but the
configuration acquired (its adjustment clock not yet looked up: log 21) and the outcome of the run (a
chain that stood before stays: log 42). Then come the lookup of the adjustment clock, whose handle is
held from then on where the clock is present; the lookups of the parents; the registrations; the mode;
a missing adjustment clock, where step 4 asks for it, or its enable that fails; the rate set; the
enable of the chain. Each answer of the environment leads to its own error, whatever the answers after
it. -/
def Obligations.FirstFailureEndsTheRun : Prop :=
  (∀ (s : State) (rx : Word), s.agent = .host → s.result = .idle →
    s.desc.namesFamily = true → s.desc.rxDelay = some rx → rx ≠ 0 → rx ≠ 2 →
    exec .orchInit s = .next { s.failedWith (.invalidDelayValue rx) .validate with
      cfg := some ⟨phyModeOf s.desc.mode, s.params.family, s.desc.txDelay.getD 2, rx, .absent⟩ }) ∧
  (∀ s : State, HostAlone s → s.result = .idle → s.desc.namesFamily = true →
    (s.desc.rxDelay.getD 0 = 0 ∨ s.desc.rxDelay.getD 0 = 2) →
    let mode := phyModeOf s.desc.mode
    let need := needsAdjClock s mode (s.desc.rxDelay.getD 0)
    ∃ t, exec .orchInit s = .next t ∧
      (t.adjHeld = true ↔ s.adjHeld = true ∨ s.env.adjNow = .present) ∧
      (s.env.adjNow = .transient →
        t.result = .failed (.clockAcquisitionFailed .transient .adjustment) .acquireAdj) ∧
      (s.env.adjNow = .permanent →
        t.result = .failed (.clockAcquisitionFailed .permanent .adjustment) .acquireAdj) ∧
      (s.env.adjNow = .present ∨ s.env.adjNow = .absent →
        (s.env.lookupAt 0 = .transient →
          t.result = .failed (.clockAcquisitionFailed .transient .parent0) .chainBuild) ∧
        (s.env.lookupAt 0 = .permanent →
          t.result = .failed (.clockAcquisitionFailed .permanent .parent0) .chainBuild) ∧
        (s.env.lookupAt 0 = .ok → s.env.lookupAt 1 = .transient →
          t.result = .failed (.clockAcquisitionFailed .transient .parent1) .chainBuild) ∧
        (s.env.lookupAt 0 = .ok → s.env.lookupAt 1 = .permanent →
          t.result = .failed (.clockAcquisitionFailed .permanent .parent1) .chainBuild) ∧
        (s.env.lookupAt 0 = .ok → s.env.lookupAt 1 = .ok →
          (∀ k n, [Node.m250Sel, .m250Div, .fixedDiv2, .rgmiiTxEn][k]? = some n →
            NoFailure s k → s.env.failAt k = true →
            t.result = .failed (.clockRegistrationFailed n) .chainBuild) ∧
          (NoFailure s 4 → ∀ x, mode = .other x →
            t.result = .failed (.invalidPhyMode mode) .phymodeApply) ∧
          (NoFailure s 4 → (∀ x, mode ≠ .other x) →
            (need → s.env.adjNow = .absent →
              t.result = .failed (.missingMandatoryClock .adjustment) .timingApply) ∧
            (need → s.env.adjNow = .present → s.env.failAt 4 = true →
              t.result = .failed (.clockEnableFailed .adjustment) .timingApply) ∧
            (mode ≠ .rmii → (need → s.env.adjNow = .present ∧ s.env.failAt 4 = false) →
              ∀ k, (need → k = 5) → (¬ need → k = 4) →
                (s.env.failAt k = true → t.result = .failed .rateSetFailed .timingApply) ∧
                (s.env.failAt k = false → s.env.failAt (k + 1) = true →
                  t.result = .failed (.clockEnableFailed .rgmiiTx) .timingApply))))))

/-- R130, R131, R143: what a failing ORCH.INIT leaves, by the stage and kind it reports. The first
four rows of R143 leave PRG_ETH0 untouched; a failure of TIMING.APPLY leaves what R143 gives, in the
last row with the select, the divisor and the parents' rates of a member of Outcomes(125 MHz); in no
failing run is the gate or the reference enable written, the position advances or the chain is
enabled. It is said of runs that start with no chain and no adjustment clock started, as R143's table
has it (for others: log 26, 40, 42). -/
def Obligations.FailingRunLeavesStateOfTable : Prop :=
  ∀ (s t : State) (kind : ErrKind) (stage : Stage),
    HostAlone s → s.chain = .none → s.adjEnabled = false →
    exec .orchInit s = .next t → t.result = .failed kind stage →
    let fam := s.params.family
    let mode := phyModeOf s.desc.mode
    let dc := delayValue mode (s.desc.txDelay.getD 2) (s.desc.rxDelay.getD 0)
    let withMode := (s.reg0 &&& modeKeep fam) ||| modeValue fam mode
    let withDelay := (withMode &&& ~~~(delayMaskWord s) &&& 0xFFFFF7FF) ||| dc
    t.pos = s.pos ∧ t.reg1 = s.reg1 ∧ t.reg0 &&& 0x00001400 = s.reg0 &&& 0x00001400 ∧
    ((stage = .validate ∧ kind = .invalidDelayValue (s.desc.rxDelay.getD 0) ∧ t.reg0 = s.reg0 ∧
        t.chain = .none ∧ t.adjEnabled = false) ∨
      (stage = .acquireAdj ∧ (∃ v, kind = .clockAcquisitionFailed v .adjustment) ∧
        t.reg0 = s.reg0 ∧ t.chain = .none ∧ t.adjEnabled = false) ∨
      (stage = .chainBuild ∧
        ((∃ v p, (p = .parent0 ∨ p = .parent1) ∧ kind = .clockAcquisitionFailed v p) ∨
          ∃ n, kind = .clockRegistrationFailed n) ∧
        t.reg0 = s.reg0 ∧ t.chain = .none ∧ t.adjEnabled = false) ∨
      (stage = .phymodeApply ∧ kind = .invalidPhyMode mode ∧ t.reg0 = s.reg0 ∧
        t.chain = .built 0 ∧ t.adjEnabled = false) ∨
      (stage = .timingApply ∧
        (kind = .missingMandatoryClock .adjustment ∨ kind = .clockEnableFailed .adjustment) ∧
        t.reg0 = withMode ∧ t.chain = .built 0 ∧ t.adjEnabled = false) ∨
      (stage = .timingApply ∧ kind = .rateSetFailed ∧ t.reg0 = withDelay ∧
        t.chain = .built 0 ∧
        (t.adjEnabled = true ↔ needsAdjClock s mode (s.desc.rxDelay.getD 0))) ∨
      (stage = .timingApply ∧ kind = .clockEnableFailed .rgmiiTx ∧
        t.reg0 &&& ~~~rateBits = withDelay &&& ~~~rateBits ∧ t.chain = .built 0 ∧
        (∃ o, Outcomes s 250000000 o ∧ selBit t.reg0 = o.sel ∧ divRaw t.reg0 = o.div ∧
          t.p0 = o.p0 ∧ t.p1 = o.p1) ∧
        (t.adjEnabled = true ↔ needsAdjClock s mode (s.desc.rxDelay.getD 0))))

/-- R132, R155: ORCH.RELEASE after a finished run cannot fail: with an enabled chain it issues one
masked write that clears the gate, otherwise no transaction; the chain, the stages and all handles
are let go, the adjustment clock is stopped, and the run is idle at position 0; no other field of
PRG_ETH0 changes. Before that it is refused. That the list is no longer stopped, that the position is 0
although R42 advances it, and that the configuration stays held, is the model's reading (log 18); so
is that the parents go on as they were where the chain was not enabled (log 6). -/
def Obligations.OrchReleaseReturnsToIdle : Prop :=
  (∀ s : State, HostAlone s → (s.result = .programmed ∨ ∃ k g, s.result = .failed k g) →
    ∃ t, exec .orchRelease s = .next t ∧
      (s.chain.enabled = true →
        t.reg0 = s.reg0 &&& ~~~0x00000400 ∧ t.txns.length = s.txns.length + 2) ∧
      (s.chain.enabled = false →
        t.reg0 = s.reg0 ∧ t.txns = s.txns ∧ t.t = s.t ∧ t.env = s.env ∧
        t.run0 = s.run0 ∧ t.run1 = s.run1) ∧
      t = { s with
        reg0 := t.reg0
        chain := .none
        stages := []
        par0Held := false
        par1Held := false
        adjHeld := false
        adjEnabled := false
        run0 := t.run0
        run1 := t.run1
        result := .idle
        pos := 0
        stopped := false
        t := t.t
        txns := t.txns
        env := t.env }) ∧
  (∀ s : State, s.agent = .host → (s.result = .idle ∨ s.result = .running) →
    exec .orchRelease s = .refused .notFinished)

/-- R125: with the rate requests answered by the reference resolver, a run, its release, and a
second run of the same description end with the same PRG_ETH0 as the first run. -/
def Obligations.ConfiguringTwiceIsIdempotent : Prop :=
  ∀ s t1 t2 t3 : State, HostAlone s →
    ReferenceResolver s → exec .orchInit s = .next t1 → t1.result = .programmed →
    exec .orchRelease t1 = .next t2 →
    ReferenceResolver t2 → exec .orchInit t2 = .next t3 → t3.result = .programmed →
    t3.reg0 = t1.reg0

/-! ## The whole machine -/

/-- R20, R74, R146: no operation but a raw write (WR.ETH0, MW) changes bit 3 or bits [31:25]; and
where the instance and the configuration held are of family Legacy, none changes bits [2:1]. -/
def Obligations.UndescribedBitsAreKept : Prop :=
  ∀ (i : Instr) (s t : State), ExclusiveInit s → exec i s = .next t →
    (∀ v, i ≠ .wrEth0 v) → (∀ off m v, i ≠ .mw off m v) →
    t.reg0 &&& 0xFE000008 = s.reg0 &&& 0xFE000008 ∧
    (s.params.family = .legacy → (∀ c, s.cfg = some c → c.family = .legacy) →
      t.reg0 &&& 0x00000006 = s.reg0 &&& 0x00000006)

/-- R33, R99: with no other agent at work, the parents' rates change only in an operation that makes a
rate request (a rate request of DATAPATH may come in a gap of any masked write: R55). -/
def Obligations.ParentRatesChangeOnlyByRateRequests : Prop :=
  ∀ (i : Instr) (s t : State), ExclusiveInit s → exec i s = .next t → (t.p0 ≠ s.p0 ∨ t.p1 ≠ s.p1) →
    (∃ node hz, i = .clkSetRate node hz) ∨ i = .timingApply ∨ i = .orchInit

/-- R3, R7, R42, R58: no step changes the parameters of the instance, PRG_ETH1, the device
description, or HOST's list. That the description stays (log 4), and that nothing changes the opaque
PRG_ETH1, other masters' turns included (log 32, 9), is the model's choice. -/
def Obligations.StepsKeepParametersAndProgram : Prop :=
  ∀ s t : State, step s = .next t →
    t.params = s.params ∧ t.reg1 = s.reg1 ∧ t.desc = s.desc ∧ t.hostProg = s.hostProg

/-- R33, R38, R88, R97, R119, R131: every step keeps the invariant, from every state that has it. -/
def Obligations.StepsKeepTheInvariant : Prop :=
  ∀ s t : State, Inv s → step s = .next t → Inv t

/-- R33, R43: the invariant holds at power-on, for any parameters, any register values and any
positive parent rates, and so at reset. -/
def Obligations.PowerOnHasTheInvariant : Prop :=
  (∀ (params : Params) (r0 r1 : Word) (p0 p1 : Rat) (a b : Bool) (desc : Description) (e : Env),
    0 < p0 → 0 < p1 → Inv (State.powerOn params r0 r1 p0 p1 a b desc e)) ∧
  Inv State.reset

/-- R98, R134, R140: an operation of DATAPATH leaves everything as it was but bits [4] and [9:7] of
PRG_ETH0, the parents' rates, what DATAPATH itself is told, and the model's logs. -/
def Obligations.DatapathIsConfinedToTheRate : Prop :=
  ∀ (i : Instr) (s t : State), s.agent = .datapath → ExclusiveInit s → exec i s = .next t →
    t.reg0 &&& ~~~rateBits = s.reg0 &&& ~~~rateBits ∧
    t = { s with
      reg0 := t.reg0
      p0 := t.p0
      p1 := t.p1
      dpT := t.dpT
      dpRate := t.dpRate
      dpError := t.dpError
      txns := t.txns
      env := t.env }

/-- R32, R43, R141: at power-on PRG_ETH0 and PRG_ETH1 hold RESET0 and RESET1, the chain is none, the
adjustment clock is not enabled, the result is idle, the position is 0, and no configuration is
held; the machine's reset is one such state. -/
def Obligations.PowerOnState : Prop :=
  (∀ (params : Params) (r0 r1 : Word) (p0 p1 : Rat) (a b : Bool) (desc : Description) (e : Env),
    let s := State.powerOn params r0 r1 p0 p1 a b desc e
    s.reg0 = r0 ∧ s.reg1 = r1 ∧ s.chain = .none ∧ s.adjEnabled = false ∧ s.result = .idle ∧
      s.pos = 0 ∧ s.cfg = none) ∧
  ∃ params r0 r1 p0 p1 a b desc e,
    State.reset = State.powerOn params r0 r1 p0 p1 a b desc e
end

