-- ==== Sys2Proof/Laws/State.lean ====
section
/-! SUPPORT. One lemma per field per named update of the state, true by rfl, so that no later proof
unfolds a record update. -/

namespace Sys2Proof.Machine

variable (s : State)

/-! ## popFail -/

@[simp] theorem popFail_params : s.popFail.params = s.params := rfl
@[simp] theorem popFail_reg0 : s.popFail.reg0 = s.reg0 := rfl
@[simp] theorem popFail_reg1 : s.popFail.reg1 = s.reg1 := rfl
@[simp] theorem popFail_p0 : s.popFail.p0 = s.p0 := rfl
@[simp] theorem popFail_p1 : s.popFail.p1 = s.p1 := rfl
@[simp] theorem popFail_run0 : s.popFail.run0 = s.run0 := rfl
@[simp] theorem popFail_run1 : s.popFail.run1 = s.run1 := rfl
@[simp] theorem popFail_adjEnabled : s.popFail.adjEnabled = s.adjEnabled := rfl
@[simp] theorem popFail_chain : s.popFail.chain = s.chain := rfl
@[simp] theorem popFail_stages : s.popFail.stages = s.stages := rfl
@[simp] theorem popFail_par0Held : s.popFail.par0Held = s.par0Held := rfl
@[simp] theorem popFail_par1Held : s.popFail.par1Held = s.par1Held := rfl
@[simp] theorem popFail_adjHeld : s.popFail.adjHeld = s.adjHeld := rfl
@[simp] theorem popFail_desc : s.popFail.desc = s.desc := rfl
@[simp] theorem popFail_cfg : s.popFail.cfg = s.cfg := rfl
@[simp] theorem popFail_result : s.popFail.result = s.result := rfl
@[simp] theorem popFail_pos : s.popFail.pos = s.pos := rfl
@[simp] theorem popFail_stopped : s.popFail.stopped = s.stopped := rfl
@[simp] theorem popFail_t : s.popFail.t = s.t := rfl
@[simp] theorem popFail_rate : s.popFail.rate = s.rate := rfl
@[simp] theorem popFail_dpT : s.popFail.dpT = s.dpT := rfl
@[simp] theorem popFail_dpRate : s.popFail.dpRate = s.dpRate := rfl
@[simp] theorem popFail_dpError : s.popFail.dpError = s.dpError := rfl
@[simp] theorem popFail_hostProg : s.popFail.hostProg = s.hostProg := rfl
@[simp] theorem popFail_dpQueue : s.popFail.dpQueue = s.dpQueue := rfl
@[simp] theorem popFail_dpJob : s.popFail.dpJob = s.dpJob := rfl
@[simp] theorem popFail_agent : s.popFail.agent = s.agent := rfl
@[simp] theorem popFail_sched : s.popFail.sched = s.sched := rfl
@[simp] theorem popFail_txns : s.popFail.txns = s.txns := rfl
@[simp] theorem popFail_env : s.popFail.env = { s.env with nFail := s.env.nFail + 1 } := rfl

/-! ## popLookup -/

@[simp] theorem popLookup_params : s.popLookup.params = s.params := rfl
@[simp] theorem popLookup_reg0 : s.popLookup.reg0 = s.reg0 := rfl
@[simp] theorem popLookup_reg1 : s.popLookup.reg1 = s.reg1 := rfl
@[simp] theorem popLookup_p0 : s.popLookup.p0 = s.p0 := rfl
@[simp] theorem popLookup_p1 : s.popLookup.p1 = s.p1 := rfl
@[simp] theorem popLookup_run0 : s.popLookup.run0 = s.run0 := rfl
@[simp] theorem popLookup_run1 : s.popLookup.run1 = s.run1 := rfl
@[simp] theorem popLookup_adjEnabled : s.popLookup.adjEnabled = s.adjEnabled := rfl
@[simp] theorem popLookup_chain : s.popLookup.chain = s.chain := rfl
@[simp] theorem popLookup_stages : s.popLookup.stages = s.stages := rfl
@[simp] theorem popLookup_par0Held : s.popLookup.par0Held = s.par0Held := rfl
@[simp] theorem popLookup_par1Held : s.popLookup.par1Held = s.par1Held := rfl
@[simp] theorem popLookup_adjHeld : s.popLookup.adjHeld = s.adjHeld := rfl
@[simp] theorem popLookup_desc : s.popLookup.desc = s.desc := rfl
@[simp] theorem popLookup_cfg : s.popLookup.cfg = s.cfg := rfl
@[simp] theorem popLookup_result : s.popLookup.result = s.result := rfl
@[simp] theorem popLookup_pos : s.popLookup.pos = s.pos := rfl
@[simp] theorem popLookup_stopped : s.popLookup.stopped = s.stopped := rfl
@[simp] theorem popLookup_t : s.popLookup.t = s.t := rfl
@[simp] theorem popLookup_rate : s.popLookup.rate = s.rate := rfl
@[simp] theorem popLookup_dpT : s.popLookup.dpT = s.dpT := rfl
@[simp] theorem popLookup_dpRate : s.popLookup.dpRate = s.dpRate := rfl
@[simp] theorem popLookup_dpError : s.popLookup.dpError = s.dpError := rfl
@[simp] theorem popLookup_hostProg : s.popLookup.hostProg = s.hostProg := rfl
@[simp] theorem popLookup_dpQueue : s.popLookup.dpQueue = s.dpQueue := rfl
@[simp] theorem popLookup_dpJob : s.popLookup.dpJob = s.dpJob := rfl
@[simp] theorem popLookup_agent : s.popLookup.agent = s.agent := rfl
@[simp] theorem popLookup_sched : s.popLookup.sched = s.sched := rfl
@[simp] theorem popLookup_txns : s.popLookup.txns = s.txns := rfl
@[simp] theorem popLookup_env : s.popLookup.env = { s.env with nLookup := s.env.nLookup + 1 } := rfl

/-! ## popAdj -/

@[simp] theorem popAdj_params : s.popAdj.params = s.params := rfl
@[simp] theorem popAdj_reg0 : s.popAdj.reg0 = s.reg0 := rfl
@[simp] theorem popAdj_reg1 : s.popAdj.reg1 = s.reg1 := rfl
@[simp] theorem popAdj_p0 : s.popAdj.p0 = s.p0 := rfl
@[simp] theorem popAdj_p1 : s.popAdj.p1 = s.p1 := rfl
@[simp] theorem popAdj_run0 : s.popAdj.run0 = s.run0 := rfl
@[simp] theorem popAdj_run1 : s.popAdj.run1 = s.run1 := rfl
@[simp] theorem popAdj_adjEnabled : s.popAdj.adjEnabled = s.adjEnabled := rfl
@[simp] theorem popAdj_chain : s.popAdj.chain = s.chain := rfl
@[simp] theorem popAdj_stages : s.popAdj.stages = s.stages := rfl
@[simp] theorem popAdj_par0Held : s.popAdj.par0Held = s.par0Held := rfl
@[simp] theorem popAdj_par1Held : s.popAdj.par1Held = s.par1Held := rfl
@[simp] theorem popAdj_adjHeld : s.popAdj.adjHeld = s.adjHeld := rfl
@[simp] theorem popAdj_desc : s.popAdj.desc = s.desc := rfl
@[simp] theorem popAdj_cfg : s.popAdj.cfg = s.cfg := rfl
@[simp] theorem popAdj_result : s.popAdj.result = s.result := rfl
@[simp] theorem popAdj_pos : s.popAdj.pos = s.pos := rfl
@[simp] theorem popAdj_stopped : s.popAdj.stopped = s.stopped := rfl
@[simp] theorem popAdj_t : s.popAdj.t = s.t := rfl
@[simp] theorem popAdj_rate : s.popAdj.rate = s.rate := rfl
@[simp] theorem popAdj_dpT : s.popAdj.dpT = s.dpT := rfl
@[simp] theorem popAdj_dpRate : s.popAdj.dpRate = s.dpRate := rfl
@[simp] theorem popAdj_dpError : s.popAdj.dpError = s.dpError := rfl
@[simp] theorem popAdj_hostProg : s.popAdj.hostProg = s.hostProg := rfl
@[simp] theorem popAdj_dpQueue : s.popAdj.dpQueue = s.dpQueue := rfl
@[simp] theorem popAdj_dpJob : s.popAdj.dpJob = s.dpJob := rfl
@[simp] theorem popAdj_agent : s.popAdj.agent = s.agent := rfl
@[simp] theorem popAdj_sched : s.popAdj.sched = s.sched := rfl
@[simp] theorem popAdj_txns : s.popAdj.txns = s.txns := rfl
@[simp] theorem popAdj_env : s.popAdj.env = { s.env with nAdj := s.env.nAdj + 1 } := rfl

/-! ## popWord -/

@[simp] theorem popWord_params : s.popWord.params = s.params := rfl
@[simp] theorem popWord_reg0 : s.popWord.reg0 = s.reg0 := rfl
@[simp] theorem popWord_reg1 : s.popWord.reg1 = s.reg1 := rfl
@[simp] theorem popWord_p0 : s.popWord.p0 = s.p0 := rfl
@[simp] theorem popWord_p1 : s.popWord.p1 = s.p1 := rfl
@[simp] theorem popWord_run0 : s.popWord.run0 = s.run0 := rfl
@[simp] theorem popWord_run1 : s.popWord.run1 = s.run1 := rfl
@[simp] theorem popWord_adjEnabled : s.popWord.adjEnabled = s.adjEnabled := rfl
@[simp] theorem popWord_chain : s.popWord.chain = s.chain := rfl
@[simp] theorem popWord_stages : s.popWord.stages = s.stages := rfl
@[simp] theorem popWord_par0Held : s.popWord.par0Held = s.par0Held := rfl
@[simp] theorem popWord_par1Held : s.popWord.par1Held = s.par1Held := rfl
@[simp] theorem popWord_adjHeld : s.popWord.adjHeld = s.adjHeld := rfl
@[simp] theorem popWord_desc : s.popWord.desc = s.desc := rfl
@[simp] theorem popWord_cfg : s.popWord.cfg = s.cfg := rfl
@[simp] theorem popWord_result : s.popWord.result = s.result := rfl
@[simp] theorem popWord_pos : s.popWord.pos = s.pos := rfl
@[simp] theorem popWord_stopped : s.popWord.stopped = s.stopped := rfl
@[simp] theorem popWord_t : s.popWord.t = s.t := rfl
@[simp] theorem popWord_rate : s.popWord.rate = s.rate := rfl
@[simp] theorem popWord_dpT : s.popWord.dpT = s.dpT := rfl
@[simp] theorem popWord_dpRate : s.popWord.dpRate = s.dpRate := rfl
@[simp] theorem popWord_dpError : s.popWord.dpError = s.dpError := rfl
@[simp] theorem popWord_hostProg : s.popWord.hostProg = s.hostProg := rfl
@[simp] theorem popWord_dpQueue : s.popWord.dpQueue = s.dpQueue := rfl
@[simp] theorem popWord_dpJob : s.popWord.dpJob = s.dpJob := rfl
@[simp] theorem popWord_agent : s.popWord.agent = s.agent := rfl
@[simp] theorem popWord_sched : s.popWord.sched = s.sched := rfl
@[simp] theorem popWord_txns : s.popWord.txns = s.txns := rfl
@[simp] theorem popWord_env : s.popWord.env = { s.env with nWord := s.env.nWord + 1 } := rfl

/-! ## popRate -/

@[simp] theorem popRate_params : s.popRate.params = s.params := rfl
@[simp] theorem popRate_reg0 : s.popRate.reg0 = s.reg0 := rfl
@[simp] theorem popRate_reg1 : s.popRate.reg1 = s.reg1 := rfl
@[simp] theorem popRate_p0 : s.popRate.p0 = s.p0 := rfl
@[simp] theorem popRate_p1 : s.popRate.p1 = s.p1 := rfl
@[simp] theorem popRate_run0 : s.popRate.run0 = s.run0 := rfl
@[simp] theorem popRate_run1 : s.popRate.run1 = s.run1 := rfl
@[simp] theorem popRate_adjEnabled : s.popRate.adjEnabled = s.adjEnabled := rfl
@[simp] theorem popRate_chain : s.popRate.chain = s.chain := rfl
@[simp] theorem popRate_stages : s.popRate.stages = s.stages := rfl
@[simp] theorem popRate_par0Held : s.popRate.par0Held = s.par0Held := rfl
@[simp] theorem popRate_par1Held : s.popRate.par1Held = s.par1Held := rfl
@[simp] theorem popRate_adjHeld : s.popRate.adjHeld = s.adjHeld := rfl
@[simp] theorem popRate_desc : s.popRate.desc = s.desc := rfl
@[simp] theorem popRate_cfg : s.popRate.cfg = s.cfg := rfl
@[simp] theorem popRate_result : s.popRate.result = s.result := rfl
@[simp] theorem popRate_pos : s.popRate.pos = s.pos := rfl
@[simp] theorem popRate_stopped : s.popRate.stopped = s.stopped := rfl
@[simp] theorem popRate_t : s.popRate.t = s.t := rfl
@[simp] theorem popRate_rate : s.popRate.rate = s.rate := rfl
@[simp] theorem popRate_dpT : s.popRate.dpT = s.dpT := rfl
@[simp] theorem popRate_dpRate : s.popRate.dpRate = s.dpRate := rfl
@[simp] theorem popRate_dpError : s.popRate.dpError = s.dpError := rfl
@[simp] theorem popRate_hostProg : s.popRate.hostProg = s.hostProg := rfl
@[simp] theorem popRate_dpQueue : s.popRate.dpQueue = s.dpQueue := rfl
@[simp] theorem popRate_dpJob : s.popRate.dpJob = s.dpJob := rfl
@[simp] theorem popRate_agent : s.popRate.agent = s.agent := rfl
@[simp] theorem popRate_sched : s.popRate.sched = s.sched := rfl
@[simp] theorem popRate_txns : s.popRate.txns = s.txns := rfl
@[simp] theorem popRate_env : s.popRate.env = { s.env with nRate := s.env.nRate + 1 } := rfl

/-! ## releaseParents -/

@[simp] theorem releaseParents_params : s.releaseParents.params = s.params := rfl
@[simp] theorem releaseParents_reg0 : s.releaseParents.reg0 = s.reg0 := rfl
@[simp] theorem releaseParents_reg1 : s.releaseParents.reg1 = s.reg1 := rfl
@[simp] theorem releaseParents_p0 : s.releaseParents.p0 = s.p0 := rfl
@[simp] theorem releaseParents_p1 : s.releaseParents.p1 = s.p1 := rfl
@[simp] theorem releaseParents_run0 : s.releaseParents.run0 = s.env.parentsNow.1 := rfl
@[simp] theorem releaseParents_run1 : s.releaseParents.run1 = s.env.parentsNow.2 := rfl
@[simp] theorem releaseParents_adjEnabled : s.releaseParents.adjEnabled = s.adjEnabled := rfl
@[simp] theorem releaseParents_chain : s.releaseParents.chain = s.chain := rfl
@[simp] theorem releaseParents_stages : s.releaseParents.stages = s.stages := rfl
@[simp] theorem releaseParents_par0Held : s.releaseParents.par0Held = s.par0Held := rfl
@[simp] theorem releaseParents_par1Held : s.releaseParents.par1Held = s.par1Held := rfl
@[simp] theorem releaseParents_adjHeld : s.releaseParents.adjHeld = s.adjHeld := rfl
@[simp] theorem releaseParents_desc : s.releaseParents.desc = s.desc := rfl
@[simp] theorem releaseParents_cfg : s.releaseParents.cfg = s.cfg := rfl
@[simp] theorem releaseParents_result : s.releaseParents.result = s.result := rfl
@[simp] theorem releaseParents_pos : s.releaseParents.pos = s.pos := rfl
@[simp] theorem releaseParents_stopped : s.releaseParents.stopped = s.stopped := rfl
@[simp] theorem releaseParents_t : s.releaseParents.t = s.t := rfl
@[simp] theorem releaseParents_rate : s.releaseParents.rate = s.rate := rfl
@[simp] theorem releaseParents_dpT : s.releaseParents.dpT = s.dpT := rfl
@[simp] theorem releaseParents_dpRate : s.releaseParents.dpRate = s.dpRate := rfl
@[simp] theorem releaseParents_dpError : s.releaseParents.dpError = s.dpError := rfl
@[simp] theorem releaseParents_hostProg : s.releaseParents.hostProg = s.hostProg := rfl
@[simp] theorem releaseParents_dpQueue : s.releaseParents.dpQueue = s.dpQueue := rfl
@[simp] theorem releaseParents_dpJob : s.releaseParents.dpJob = s.dpJob := rfl
@[simp] theorem releaseParents_agent : s.releaseParents.agent = s.agent := rfl
@[simp] theorem releaseParents_sched : s.releaseParents.sched = s.sched := rfl
@[simp] theorem releaseParents_txns : s.releaseParents.txns = s.txns := rfl
@[simp] theorem releaseParents_env :
    s.releaseParents.env =
      { s.env with nParents := s.env.nParents + 1 } := rfl

/-! ## setT -/

@[simp] theorem setT_params (v : Word) : (s.setT v).params = s.params := rfl
@[simp] theorem setT_reg0 (v : Word) : (s.setT v).reg0 = s.reg0 := rfl
@[simp] theorem setT_reg1 (v : Word) : (s.setT v).reg1 = s.reg1 := rfl
@[simp] theorem setT_p0 (v : Word) : (s.setT v).p0 = s.p0 := rfl
@[simp] theorem setT_p1 (v : Word) : (s.setT v).p1 = s.p1 := rfl
@[simp] theorem setT_run0 (v : Word) : (s.setT v).run0 = s.run0 := rfl
@[simp] theorem setT_run1 (v : Word) : (s.setT v).run1 = s.run1 := rfl
@[simp] theorem setT_adjEnabled (v : Word) : (s.setT v).adjEnabled = s.adjEnabled := rfl
@[simp] theorem setT_chain (v : Word) : (s.setT v).chain = s.chain := rfl
@[simp] theorem setT_stages (v : Word) : (s.setT v).stages = s.stages := rfl
@[simp] theorem setT_par0Held (v : Word) : (s.setT v).par0Held = s.par0Held := rfl
@[simp] theorem setT_par1Held (v : Word) : (s.setT v).par1Held = s.par1Held := rfl
@[simp] theorem setT_adjHeld (v : Word) : (s.setT v).adjHeld = s.adjHeld := rfl
@[simp] theorem setT_desc (v : Word) : (s.setT v).desc = s.desc := rfl
@[simp] theorem setT_cfg (v : Word) : (s.setT v).cfg = s.cfg := rfl
@[simp] theorem setT_result (v : Word) : (s.setT v).result = s.result := rfl
@[simp] theorem setT_pos (v : Word) : (s.setT v).pos = s.pos := rfl
@[simp] theorem setT_stopped (v : Word) : (s.setT v).stopped = s.stopped := rfl
@[simp] theorem setT_t (v : Word) : (s.setT v).t = if s.agent = .host then v else s.t := rfl
@[simp] theorem setT_rate (v : Word) : (s.setT v).rate = s.rate := rfl
@[simp] theorem setT_dpT (v : Word) : (s.setT v).dpT = if s.agent = .host then s.dpT else v := rfl
@[simp] theorem setT_dpRate (v : Word) : (s.setT v).dpRate = s.dpRate := rfl
@[simp] theorem setT_dpError (v : Word) : (s.setT v).dpError = s.dpError := rfl
@[simp] theorem setT_hostProg (v : Word) : (s.setT v).hostProg = s.hostProg := rfl
@[simp] theorem setT_dpQueue (v : Word) : (s.setT v).dpQueue = s.dpQueue := rfl
@[simp] theorem setT_dpJob (v : Word) : (s.setT v).dpJob = s.dpJob := rfl
@[simp] theorem setT_agent (v : Word) : (s.setT v).agent = s.agent := rfl
@[simp] theorem setT_sched (v : Word) : (s.setT v).sched = s.sched := rfl
@[simp] theorem setT_txns (v : Word) : (s.setT v).txns = s.txns := rfl
@[simp] theorem setT_env (v : Word) : (s.setT v).env = s.env := rfl

/-! ## setRate -/

@[simp] theorem setRate_params (f : Rat) : (s.setRate f).params = s.params := rfl
@[simp] theorem setRate_reg0 (f : Rat) : (s.setRate f).reg0 = s.reg0 := rfl
@[simp] theorem setRate_reg1 (f : Rat) : (s.setRate f).reg1 = s.reg1 := rfl
@[simp] theorem setRate_p0 (f : Rat) : (s.setRate f).p0 = s.p0 := rfl
@[simp] theorem setRate_p1 (f : Rat) : (s.setRate f).p1 = s.p1 := rfl
@[simp] theorem setRate_run0 (f : Rat) : (s.setRate f).run0 = s.run0 := rfl
@[simp] theorem setRate_run1 (f : Rat) : (s.setRate f).run1 = s.run1 := rfl
@[simp] theorem setRate_adjEnabled (f : Rat) : (s.setRate f).adjEnabled = s.adjEnabled := rfl
@[simp] theorem setRate_chain (f : Rat) : (s.setRate f).chain = s.chain := rfl
@[simp] theorem setRate_stages (f : Rat) : (s.setRate f).stages = s.stages := rfl
@[simp] theorem setRate_par0Held (f : Rat) : (s.setRate f).par0Held = s.par0Held := rfl
@[simp] theorem setRate_par1Held (f : Rat) : (s.setRate f).par1Held = s.par1Held := rfl
@[simp] theorem setRate_adjHeld (f : Rat) : (s.setRate f).adjHeld = s.adjHeld := rfl
@[simp] theorem setRate_desc (f : Rat) : (s.setRate f).desc = s.desc := rfl
@[simp] theorem setRate_cfg (f : Rat) : (s.setRate f).cfg = s.cfg := rfl
@[simp] theorem setRate_result (f : Rat) : (s.setRate f).result = s.result := rfl
@[simp] theorem setRate_pos (f : Rat) : (s.setRate f).pos = s.pos := rfl
@[simp] theorem setRate_stopped (f : Rat) : (s.setRate f).stopped = s.stopped := rfl
@[simp] theorem setRate_t (f : Rat) : (s.setRate f).t = s.t := rfl
@[simp] theorem setRate_rate (f : Rat) :
    (s.setRate f).rate =
      if s.agent = .host then f else s.rate := rfl
@[simp] theorem setRate_dpT (f : Rat) : (s.setRate f).dpT = s.dpT := rfl
@[simp] theorem setRate_dpRate (f : Rat) :
    (s.setRate f).dpRate =
      if s.agent = .host then s.dpRate else f := rfl
@[simp] theorem setRate_dpError (f : Rat) : (s.setRate f).dpError = s.dpError := rfl
@[simp] theorem setRate_hostProg (f : Rat) : (s.setRate f).hostProg = s.hostProg := rfl
@[simp] theorem setRate_dpQueue (f : Rat) : (s.setRate f).dpQueue = s.dpQueue := rfl
@[simp] theorem setRate_dpJob (f : Rat) : (s.setRate f).dpJob = s.dpJob := rfl
@[simp] theorem setRate_agent (f : Rat) : (s.setRate f).agent = s.agent := rfl
@[simp] theorem setRate_sched (f : Rat) : (s.setRate f).sched = s.sched := rfl
@[simp] theorem setRate_txns (f : Rat) : (s.setRate f).txns = s.txns := rfl
@[simp] theorem setRate_env (f : Rat) : (s.setRate f).env = s.env := rfl

/-! ## logTxn -/

@[simp] theorem logTxn_params (d : Dir) (o : Nat) (v : Word) :
    (s.logTxn d o v).params =
      s.params := rfl
@[simp] theorem logTxn_reg0 (d : Dir) (o : Nat) (v : Word) : (s.logTxn d o v).reg0 = s.reg0 := rfl
@[simp] theorem logTxn_reg1 (d : Dir) (o : Nat) (v : Word) : (s.logTxn d o v).reg1 = s.reg1 := rfl
@[simp] theorem logTxn_p0 (d : Dir) (o : Nat) (v : Word) : (s.logTxn d o v).p0 = s.p0 := rfl
@[simp] theorem logTxn_p1 (d : Dir) (o : Nat) (v : Word) : (s.logTxn d o v).p1 = s.p1 := rfl
@[simp] theorem logTxn_run0 (d : Dir) (o : Nat) (v : Word) : (s.logTxn d o v).run0 = s.run0 := rfl
@[simp] theorem logTxn_run1 (d : Dir) (o : Nat) (v : Word) : (s.logTxn d o v).run1 = s.run1 := rfl
@[simp] theorem logTxn_adjEnabled (d : Dir) (o : Nat) (v : Word) :
    (s.logTxn d o v).adjEnabled =
      s.adjEnabled := rfl
@[simp] theorem logTxn_chain (d : Dir) (o : Nat) (v : Word) :
    (s.logTxn d o v).chain =
      s.chain := rfl
@[simp] theorem logTxn_stages (d : Dir) (o : Nat) (v : Word) :
    (s.logTxn d o v).stages =
      s.stages := rfl
@[simp] theorem logTxn_par0Held (d : Dir) (o : Nat) (v : Word) :
    (s.logTxn d o v).par0Held =
      s.par0Held := rfl
@[simp] theorem logTxn_par1Held (d : Dir) (o : Nat) (v : Word) :
    (s.logTxn d o v).par1Held =
      s.par1Held := rfl
@[simp] theorem logTxn_adjHeld (d : Dir) (o : Nat) (v : Word) :
    (s.logTxn d o v).adjHeld =
      s.adjHeld := rfl
@[simp] theorem logTxn_desc (d : Dir) (o : Nat) (v : Word) : (s.logTxn d o v).desc = s.desc := rfl
@[simp] theorem logTxn_cfg (d : Dir) (o : Nat) (v : Word) : (s.logTxn d o v).cfg = s.cfg := rfl
@[simp] theorem logTxn_result (d : Dir) (o : Nat) (v : Word) :
    (s.logTxn d o v).result =
      s.result := rfl
@[simp] theorem logTxn_pos (d : Dir) (o : Nat) (v : Word) : (s.logTxn d o v).pos = s.pos := rfl
@[simp] theorem logTxn_stopped (d : Dir) (o : Nat) (v : Word) :
    (s.logTxn d o v).stopped =
      s.stopped := rfl
@[simp] theorem logTxn_t (d : Dir) (o : Nat) (v : Word) : (s.logTxn d o v).t = s.t := rfl
@[simp] theorem logTxn_rate (d : Dir) (o : Nat) (v : Word) : (s.logTxn d o v).rate = s.rate := rfl
@[simp] theorem logTxn_dpT (d : Dir) (o : Nat) (v : Word) : (s.logTxn d o v).dpT = s.dpT := rfl
@[simp] theorem logTxn_dpRate (d : Dir) (o : Nat) (v : Word) :
    (s.logTxn d o v).dpRate =
      s.dpRate := rfl
@[simp] theorem logTxn_dpError (d : Dir) (o : Nat) (v : Word) :
    (s.logTxn d o v).dpError =
      s.dpError := rfl
@[simp] theorem logTxn_hostProg (d : Dir) (o : Nat) (v : Word) :
    (s.logTxn d o v).hostProg =
      s.hostProg := rfl
@[simp] theorem logTxn_dpQueue (d : Dir) (o : Nat) (v : Word) :
    (s.logTxn d o v).dpQueue =
      s.dpQueue := rfl
@[simp] theorem logTxn_dpJob (d : Dir) (o : Nat) (v : Word) :
    (s.logTxn d o v).dpJob =
      s.dpJob := rfl
@[simp] theorem logTxn_agent (d : Dir) (o : Nat) (v : Word) :
    (s.logTxn d o v).agent =
      s.agent := rfl
@[simp] theorem logTxn_sched (d : Dir) (o : Nat) (v : Word) :
    (s.logTxn d o v).sched =
      s.sched := rfl
@[simp] theorem logTxn_txns (d : Dir) (o : Nat) (v : Word) :
    (s.logTxn d o v).txns =
      s.txns ++ [⟨s.agent, d, o, v⟩] := rfl
@[simp] theorem logTxn_env (d : Dir) (o : Nat) (v : Word) : (s.logTxn d o v).env = s.env := rfl

/-! ## readEth0 -/

@[simp] theorem readEth0_params : s.readEth0.params = s.params := rfl
@[simp] theorem readEth0_reg0 : s.readEth0.reg0 = s.reg0 := rfl
@[simp] theorem readEth0_reg1 : s.readEth0.reg1 = s.reg1 := rfl
@[simp] theorem readEth0_p0 : s.readEth0.p0 = s.p0 := rfl
@[simp] theorem readEth0_p1 : s.readEth0.p1 = s.p1 := rfl
@[simp] theorem readEth0_run0 : s.readEth0.run0 = s.run0 := rfl
@[simp] theorem readEth0_run1 : s.readEth0.run1 = s.run1 := rfl
@[simp] theorem readEth0_adjEnabled : s.readEth0.adjEnabled = s.adjEnabled := rfl
@[simp] theorem readEth0_chain : s.readEth0.chain = s.chain := rfl
@[simp] theorem readEth0_stages : s.readEth0.stages = s.stages := rfl
@[simp] theorem readEth0_par0Held : s.readEth0.par0Held = s.par0Held := rfl
@[simp] theorem readEth0_par1Held : s.readEth0.par1Held = s.par1Held := rfl
@[simp] theorem readEth0_adjHeld : s.readEth0.adjHeld = s.adjHeld := rfl
@[simp] theorem readEth0_desc : s.readEth0.desc = s.desc := rfl
@[simp] theorem readEth0_cfg : s.readEth0.cfg = s.cfg := rfl
@[simp] theorem readEth0_result : s.readEth0.result = s.result := rfl
@[simp] theorem readEth0_pos : s.readEth0.pos = s.pos := rfl
@[simp] theorem readEth0_stopped : s.readEth0.stopped = s.stopped := rfl
@[simp] theorem readEth0_t : s.readEth0.t = if s.agent = .host then s.reg0 else s.t := rfl
@[simp] theorem readEth0_rate : s.readEth0.rate = s.rate := rfl
@[simp] theorem readEth0_dpT : s.readEth0.dpT = if s.agent = .host then s.dpT else s.reg0 := rfl
@[simp] theorem readEth0_dpRate : s.readEth0.dpRate = s.dpRate := rfl
@[simp] theorem readEth0_dpError : s.readEth0.dpError = s.dpError := rfl
@[simp] theorem readEth0_hostProg : s.readEth0.hostProg = s.hostProg := rfl
@[simp] theorem readEth0_dpQueue : s.readEth0.dpQueue = s.dpQueue := rfl
@[simp] theorem readEth0_dpJob : s.readEth0.dpJob = s.dpJob := rfl
@[simp] theorem readEth0_agent : s.readEth0.agent = s.agent := rfl
@[simp] theorem readEth0_sched : s.readEth0.sched = s.sched := rfl
@[simp] theorem readEth0_txns : s.readEth0.txns = s.txns ++ [⟨s.agent, .read, 0, s.reg0⟩] := rfl
@[simp] theorem readEth0_env : s.readEth0.env = s.env := rfl

/-! ## writeEth0 -/

@[simp] theorem writeEth0_params (v : Word) : (s.writeEth0 v).params = s.params := rfl
@[simp] theorem writeEth0_reg0 (v : Word) : (s.writeEth0 v).reg0 = v := rfl
@[simp] theorem writeEth0_reg1 (v : Word) : (s.writeEth0 v).reg1 = s.reg1 := rfl
@[simp] theorem writeEth0_p0 (v : Word) : (s.writeEth0 v).p0 = s.p0 := rfl
@[simp] theorem writeEth0_p1 (v : Word) : (s.writeEth0 v).p1 = s.p1 := rfl
@[simp] theorem writeEth0_run0 (v : Word) : (s.writeEth0 v).run0 = s.run0 := rfl
@[simp] theorem writeEth0_run1 (v : Word) : (s.writeEth0 v).run1 = s.run1 := rfl
@[simp] theorem writeEth0_adjEnabled (v : Word) : (s.writeEth0 v).adjEnabled = s.adjEnabled := rfl
@[simp] theorem writeEth0_chain (v : Word) : (s.writeEth0 v).chain = s.chain := rfl
@[simp] theorem writeEth0_stages (v : Word) : (s.writeEth0 v).stages = s.stages := rfl
@[simp] theorem writeEth0_par0Held (v : Word) : (s.writeEth0 v).par0Held = s.par0Held := rfl
@[simp] theorem writeEth0_par1Held (v : Word) : (s.writeEth0 v).par1Held = s.par1Held := rfl
@[simp] theorem writeEth0_adjHeld (v : Word) : (s.writeEth0 v).adjHeld = s.adjHeld := rfl
@[simp] theorem writeEth0_desc (v : Word) : (s.writeEth0 v).desc = s.desc := rfl
@[simp] theorem writeEth0_cfg (v : Word) : (s.writeEth0 v).cfg = s.cfg := rfl
@[simp] theorem writeEth0_result (v : Word) : (s.writeEth0 v).result = s.result := rfl
@[simp] theorem writeEth0_pos (v : Word) : (s.writeEth0 v).pos = s.pos := rfl
@[simp] theorem writeEth0_stopped (v : Word) : (s.writeEth0 v).stopped = s.stopped := rfl
@[simp] theorem writeEth0_t (v : Word) : (s.writeEth0 v).t = s.t := rfl
@[simp] theorem writeEth0_rate (v : Word) : (s.writeEth0 v).rate = s.rate := rfl
@[simp] theorem writeEth0_dpT (v : Word) : (s.writeEth0 v).dpT = s.dpT := rfl
@[simp] theorem writeEth0_dpRate (v : Word) : (s.writeEth0 v).dpRate = s.dpRate := rfl
@[simp] theorem writeEth0_dpError (v : Word) : (s.writeEth0 v).dpError = s.dpError := rfl
@[simp] theorem writeEth0_hostProg (v : Word) : (s.writeEth0 v).hostProg = s.hostProg := rfl
@[simp] theorem writeEth0_dpQueue (v : Word) : (s.writeEth0 v).dpQueue = s.dpQueue := rfl
@[simp] theorem writeEth0_dpJob (v : Word) : (s.writeEth0 v).dpJob = s.dpJob := rfl
@[simp] theorem writeEth0_agent (v : Word) : (s.writeEth0 v).agent = s.agent := rfl
@[simp] theorem writeEth0_sched (v : Word) : (s.writeEth0 v).sched = s.sched := rfl
@[simp] theorem writeEth0_txns (v : Word) :
    (s.writeEth0 v).txns =
      s.txns ++ [⟨s.agent, .write, 0, v⟩] := rfl
@[simp] theorem writeEth0_env (v : Word) : (s.writeEth0 v).env = s.env := rfl

/-! ## readEth1 -/

@[simp] theorem readEth1_params : s.readEth1.params = s.params := rfl
@[simp] theorem readEth1_reg0 : s.readEth1.reg0 = s.reg0 := rfl
@[simp] theorem readEth1_reg1 : s.readEth1.reg1 = s.reg1 := rfl
@[simp] theorem readEth1_p0 : s.readEth1.p0 = s.p0 := rfl
@[simp] theorem readEth1_p1 : s.readEth1.p1 = s.p1 := rfl
@[simp] theorem readEth1_run0 : s.readEth1.run0 = s.run0 := rfl
@[simp] theorem readEth1_run1 : s.readEth1.run1 = s.run1 := rfl
@[simp] theorem readEth1_adjEnabled : s.readEth1.adjEnabled = s.adjEnabled := rfl
@[simp] theorem readEth1_chain : s.readEth1.chain = s.chain := rfl
@[simp] theorem readEth1_stages : s.readEth1.stages = s.stages := rfl
@[simp] theorem readEth1_par0Held : s.readEth1.par0Held = s.par0Held := rfl
@[simp] theorem readEth1_par1Held : s.readEth1.par1Held = s.par1Held := rfl
@[simp] theorem readEth1_adjHeld : s.readEth1.adjHeld = s.adjHeld := rfl
@[simp] theorem readEth1_desc : s.readEth1.desc = s.desc := rfl
@[simp] theorem readEth1_cfg : s.readEth1.cfg = s.cfg := rfl
@[simp] theorem readEth1_result : s.readEth1.result = s.result := rfl
@[simp] theorem readEth1_pos : s.readEth1.pos = s.pos := rfl
@[simp] theorem readEth1_stopped : s.readEth1.stopped = s.stopped := rfl
@[simp] theorem readEth1_t : s.readEth1.t = if s.agent = .host then s.env.wordNow else s.t := rfl
@[simp] theorem readEth1_rate : s.readEth1.rate = s.rate := rfl
@[simp] theorem readEth1_dpT :
    s.readEth1.dpT =
      if s.agent = .host then s.dpT else s.env.wordNow := rfl
@[simp] theorem readEth1_dpRate : s.readEth1.dpRate = s.dpRate := rfl
@[simp] theorem readEth1_dpError : s.readEth1.dpError = s.dpError := rfl
@[simp] theorem readEth1_hostProg : s.readEth1.hostProg = s.hostProg := rfl
@[simp] theorem readEth1_dpQueue : s.readEth1.dpQueue = s.dpQueue := rfl
@[simp] theorem readEth1_dpJob : s.readEth1.dpJob = s.dpJob := rfl
@[simp] theorem readEth1_agent : s.readEth1.agent = s.agent := rfl
@[simp] theorem readEth1_sched : s.readEth1.sched = s.sched := rfl
@[simp] theorem readEth1_txns :
    s.readEth1.txns =
      s.txns ++ [⟨s.agent, .read, 4, s.env.wordNow⟩] := rfl
@[simp] theorem readEth1_env : s.readEth1.env = { s.env with nWord := s.env.nWord + 1 } := rfl

/-! ## takeRaise -/

@[simp] theorem takeRaise_params (k : ErrKind) (g : Stage) :
    (s.takeRaise k g).params =
      s.params := rfl
@[simp] theorem takeRaise_reg0 (k : ErrKind) (g : Stage) : (s.takeRaise k g).reg0 = s.reg0 := rfl
@[simp] theorem takeRaise_reg1 (k : ErrKind) (g : Stage) : (s.takeRaise k g).reg1 = s.reg1 := rfl
@[simp] theorem takeRaise_p0 (k : ErrKind) (g : Stage) : (s.takeRaise k g).p0 = s.p0 := rfl
@[simp] theorem takeRaise_p1 (k : ErrKind) (g : Stage) : (s.takeRaise k g).p1 = s.p1 := rfl
@[simp] theorem takeRaise_run0 (k : ErrKind) (g : Stage) : (s.takeRaise k g).run0 = s.run0 := rfl
@[simp] theorem takeRaise_run1 (k : ErrKind) (g : Stage) : (s.takeRaise k g).run1 = s.run1 := rfl
@[simp] theorem takeRaise_adjEnabled (k : ErrKind) (g : Stage) :
    (s.takeRaise k g).adjEnabled =
      s.adjEnabled := rfl
@[simp] theorem takeRaise_chain (k : ErrKind) (g : Stage) : (s.takeRaise k g).chain = s.chain := rfl
@[simp] theorem takeRaise_stages (k : ErrKind) (g : Stage) :
    (s.takeRaise k g).stages =
      s.stages := rfl
@[simp] theorem takeRaise_par0Held (k : ErrKind) (g : Stage) :
    (s.takeRaise k g).par0Held =
      s.par0Held := rfl
@[simp] theorem takeRaise_par1Held (k : ErrKind) (g : Stage) :
    (s.takeRaise k g).par1Held =
      s.par1Held := rfl
@[simp] theorem takeRaise_adjHeld (k : ErrKind) (g : Stage) :
    (s.takeRaise k g).adjHeld =
      s.adjHeld := rfl
@[simp] theorem takeRaise_desc (k : ErrKind) (g : Stage) : (s.takeRaise k g).desc = s.desc := rfl
@[simp] theorem takeRaise_cfg (k : ErrKind) (g : Stage) : (s.takeRaise k g).cfg = s.cfg := rfl
@[simp] theorem takeRaise_result (k : ErrKind) (g : Stage) :
    (s.takeRaise k g).result =
      if s.agent = .host then .failed k g else s.result := rfl
@[simp] theorem takeRaise_pos (k : ErrKind) (g : Stage) : (s.takeRaise k g).pos = s.pos := rfl
@[simp] theorem takeRaise_stopped (k : ErrKind) (g : Stage) :
    (s.takeRaise k g).stopped =
      if s.agent = .host then true else s.stopped := rfl
@[simp] theorem takeRaise_t (k : ErrKind) (g : Stage) : (s.takeRaise k g).t = s.t := rfl
@[simp] theorem takeRaise_rate (k : ErrKind) (g : Stage) : (s.takeRaise k g).rate = s.rate := rfl
@[simp] theorem takeRaise_dpT (k : ErrKind) (g : Stage) : (s.takeRaise k g).dpT = s.dpT := rfl
@[simp] theorem takeRaise_dpRate (k : ErrKind) (g : Stage) :
    (s.takeRaise k g).dpRate =
      s.dpRate := rfl
@[simp] theorem takeRaise_dpError (k : ErrKind) (g : Stage) :
    (s.takeRaise k g).dpError =
      if s.agent = .host then s.dpError else some k := rfl
@[simp] theorem takeRaise_hostProg (k : ErrKind) (g : Stage) :
    (s.takeRaise k g).hostProg =
      s.hostProg := rfl
@[simp] theorem takeRaise_dpQueue (k : ErrKind) (g : Stage) :
    (s.takeRaise k g).dpQueue =
      s.dpQueue := rfl
@[simp] theorem takeRaise_dpJob (k : ErrKind) (g : Stage) :
    (s.takeRaise k g).dpJob =
      s.dpJob := rfl
@[simp] theorem takeRaise_agent (k : ErrKind) (g : Stage) : (s.takeRaise k g).agent = s.agent := rfl
@[simp] theorem takeRaise_sched (k : ErrKind) (g : Stage) : (s.takeRaise k g).sched = s.sched := rfl
@[simp] theorem takeRaise_txns (k : ErrKind) (g : Stage) : (s.takeRaise k g).txns = s.txns := rfl
@[simp] theorem takeRaise_env (k : ErrKind) (g : Stage) : (s.takeRaise k g).env = s.env := rfl

/-! ## complete -/

@[simp] theorem complete_params : s.complete.params = s.params := rfl
@[simp] theorem complete_reg0 : s.complete.reg0 = s.reg0 := rfl
@[simp] theorem complete_reg1 : s.complete.reg1 = s.reg1 := rfl
@[simp] theorem complete_p0 : s.complete.p0 = s.p0 := rfl
@[simp] theorem complete_p1 : s.complete.p1 = s.p1 := rfl
@[simp] theorem complete_run0 : s.complete.run0 = s.run0 := rfl
@[simp] theorem complete_run1 : s.complete.run1 = s.run1 := rfl
@[simp] theorem complete_adjEnabled : s.complete.adjEnabled = s.adjEnabled := rfl
@[simp] theorem complete_chain : s.complete.chain = s.chain := rfl
@[simp] theorem complete_stages : s.complete.stages = s.stages := rfl
@[simp] theorem complete_par0Held : s.complete.par0Held = s.par0Held := rfl
@[simp] theorem complete_par1Held : s.complete.par1Held = s.par1Held := rfl
@[simp] theorem complete_adjHeld : s.complete.adjHeld = s.adjHeld := rfl
@[simp] theorem complete_desc : s.complete.desc = s.desc := rfl
@[simp] theorem complete_cfg : s.complete.cfg = s.cfg := rfl
@[simp] theorem complete_result : s.complete.result = s.result := rfl
@[simp] theorem complete_pos : s.complete.pos = if s.agent = .host then s.pos + 1 else s.pos := rfl
@[simp] theorem complete_stopped : s.complete.stopped = s.stopped := rfl
@[simp] theorem complete_t : s.complete.t = s.t := rfl
@[simp] theorem complete_rate : s.complete.rate = s.rate := rfl
@[simp] theorem complete_dpT : s.complete.dpT = s.dpT := rfl
@[simp] theorem complete_dpRate : s.complete.dpRate = s.dpRate := rfl
@[simp] theorem complete_dpError :
    s.complete.dpError =
      if s.agent = .host then s.dpError else none := rfl
@[simp] theorem complete_hostProg : s.complete.hostProg = s.hostProg := rfl
@[simp] theorem complete_dpQueue : s.complete.dpQueue = s.dpQueue := rfl
@[simp] theorem complete_dpJob : s.complete.dpJob = s.dpJob := rfl
@[simp] theorem complete_agent : s.complete.agent = s.agent := rfl
@[simp] theorem complete_sched : s.complete.sched = s.sched := rfl
@[simp] theorem complete_txns : s.complete.txns = s.txns := rfl
@[simp] theorem complete_env : s.complete.env = s.env := rfl

/-! ## backToIdle -/

@[simp] theorem backToIdle_params : s.backToIdle.params = s.params := rfl
@[simp] theorem backToIdle_reg0 : s.backToIdle.reg0 = s.reg0 := rfl
@[simp] theorem backToIdle_reg1 : s.backToIdle.reg1 = s.reg1 := rfl
@[simp] theorem backToIdle_p0 : s.backToIdle.p0 = s.p0 := rfl
@[simp] theorem backToIdle_p1 : s.backToIdle.p1 = s.p1 := rfl
@[simp] theorem backToIdle_run0 : s.backToIdle.run0 = s.run0 := rfl
@[simp] theorem backToIdle_run1 : s.backToIdle.run1 = s.run1 := rfl
@[simp] theorem backToIdle_adjEnabled : s.backToIdle.adjEnabled = s.adjEnabled := rfl
@[simp] theorem backToIdle_chain : s.backToIdle.chain = s.chain := rfl
@[simp] theorem backToIdle_stages : s.backToIdle.stages = s.stages := rfl
@[simp] theorem backToIdle_par0Held : s.backToIdle.par0Held = s.par0Held := rfl
@[simp] theorem backToIdle_par1Held : s.backToIdle.par1Held = s.par1Held := rfl
@[simp] theorem backToIdle_adjHeld : s.backToIdle.adjHeld = s.adjHeld := rfl
@[simp] theorem backToIdle_desc : s.backToIdle.desc = s.desc := rfl
@[simp] theorem backToIdle_cfg : s.backToIdle.cfg = s.cfg := rfl
@[simp] theorem backToIdle_result : s.backToIdle.result = .idle := rfl
@[simp] theorem backToIdle_pos : s.backToIdle.pos = 0 := rfl
@[simp] theorem backToIdle_stopped : s.backToIdle.stopped = false := rfl
@[simp] theorem backToIdle_t : s.backToIdle.t = s.t := rfl
@[simp] theorem backToIdle_rate : s.backToIdle.rate = s.rate := rfl
@[simp] theorem backToIdle_dpT : s.backToIdle.dpT = s.dpT := rfl
@[simp] theorem backToIdle_dpRate : s.backToIdle.dpRate = s.dpRate := rfl
@[simp] theorem backToIdle_dpError : s.backToIdle.dpError = s.dpError := rfl
@[simp] theorem backToIdle_hostProg : s.backToIdle.hostProg = s.hostProg := rfl
@[simp] theorem backToIdle_dpQueue : s.backToIdle.dpQueue = s.dpQueue := rfl
@[simp] theorem backToIdle_dpJob : s.backToIdle.dpJob = s.dpJob := rfl
@[simp] theorem backToIdle_agent : s.backToIdle.agent = s.agent := rfl
@[simp] theorem backToIdle_sched : s.backToIdle.sched = s.sched := rfl
@[simp] theorem backToIdle_txns : s.backToIdle.txns = s.txns := rfl
@[simp] theorem backToIdle_env : s.backToIdle.env = s.env := rfl

/-! ## afterMw -/

@[simp] theorem afterMw_params (m v : Word) : (s.afterMw m v).params = s.params := rfl
@[simp] theorem afterMw_reg0 (m v : Word) :
    (s.afterMw m v).reg0 =
      (s.reg0 &&& ~~~m) ||| (v &&& m) := rfl
@[simp] theorem afterMw_reg1 (m v : Word) : (s.afterMw m v).reg1 = s.reg1 := rfl
@[simp] theorem afterMw_p0 (m v : Word) : (s.afterMw m v).p0 = s.p0 := rfl
@[simp] theorem afterMw_p1 (m v : Word) : (s.afterMw m v).p1 = s.p1 := rfl
@[simp] theorem afterMw_run0 (m v : Word) : (s.afterMw m v).run0 = s.run0 := rfl
@[simp] theorem afterMw_run1 (m v : Word) : (s.afterMw m v).run1 = s.run1 := rfl
@[simp] theorem afterMw_adjEnabled (m v : Word) : (s.afterMw m v).adjEnabled = s.adjEnabled := rfl
@[simp] theorem afterMw_chain (m v : Word) : (s.afterMw m v).chain = s.chain := rfl
@[simp] theorem afterMw_stages (m v : Word) : (s.afterMw m v).stages = s.stages := rfl
@[simp] theorem afterMw_par0Held (m v : Word) : (s.afterMw m v).par0Held = s.par0Held := rfl
@[simp] theorem afterMw_par1Held (m v : Word) : (s.afterMw m v).par1Held = s.par1Held := rfl
@[simp] theorem afterMw_adjHeld (m v : Word) : (s.afterMw m v).adjHeld = s.adjHeld := rfl
@[simp] theorem afterMw_desc (m v : Word) : (s.afterMw m v).desc = s.desc := rfl
@[simp] theorem afterMw_cfg (m v : Word) : (s.afterMw m v).cfg = s.cfg := rfl
@[simp] theorem afterMw_result (m v : Word) : (s.afterMw m v).result = s.result := rfl
@[simp] theorem afterMw_pos (m v : Word) : (s.afterMw m v).pos = s.pos := rfl
@[simp] theorem afterMw_stopped (m v : Word) : (s.afterMw m v).stopped = s.stopped := rfl
@[simp] theorem afterMw_t (m v : Word) : (s.afterMw m v).t = s.reg0 := rfl
@[simp] theorem afterMw_rate (m v : Word) : (s.afterMw m v).rate = s.rate := rfl
@[simp] theorem afterMw_dpT (m v : Word) : (s.afterMw m v).dpT = s.dpT := rfl
@[simp] theorem afterMw_dpRate (m v : Word) : (s.afterMw m v).dpRate = s.dpRate := rfl
@[simp] theorem afterMw_dpError (m v : Word) : (s.afterMw m v).dpError = s.dpError := rfl
@[simp] theorem afterMw_hostProg (m v : Word) : (s.afterMw m v).hostProg = s.hostProg := rfl
@[simp] theorem afterMw_dpQueue (m v : Word) : (s.afterMw m v).dpQueue = s.dpQueue := rfl
@[simp] theorem afterMw_dpJob (m v : Word) : (s.afterMw m v).dpJob = s.dpJob := rfl
@[simp] theorem afterMw_agent (m v : Word) : (s.afterMw m v).agent = s.agent := rfl
@[simp] theorem afterMw_sched (m v : Word) : (s.afterMw m v).sched = s.sched := rfl
@[simp] theorem afterMw_txns (m v : Word) :
    (s.afterMw m v).txns =
      s.txns ++ [⟨.host, .read, 0, s.reg0⟩, ⟨.host, .write, 0, (s.reg0 &&& ~~~m) ||| (v &&& m)⟩] := rfl
@[simp] theorem afterMw_env (m v : Word) :
    (s.afterMw m v).env =
      { s.env with nGap := s.env.nGap + 2 } := rfl

/-! ## advance -/

@[simp] theorem advance_params : s.advance.params = s.params := rfl
@[simp] theorem advance_reg0 : s.advance.reg0 = s.reg0 := rfl
@[simp] theorem advance_reg1 : s.advance.reg1 = s.reg1 := rfl
@[simp] theorem advance_p0 : s.advance.p0 = s.p0 := rfl
@[simp] theorem advance_p1 : s.advance.p1 = s.p1 := rfl
@[simp] theorem advance_run0 : s.advance.run0 = s.run0 := rfl
@[simp] theorem advance_run1 : s.advance.run1 = s.run1 := rfl
@[simp] theorem advance_adjEnabled : s.advance.adjEnabled = s.adjEnabled := rfl
@[simp] theorem advance_chain : s.advance.chain = s.chain := rfl
@[simp] theorem advance_stages : s.advance.stages = s.stages := rfl
@[simp] theorem advance_par0Held : s.advance.par0Held = s.par0Held := rfl
@[simp] theorem advance_par1Held : s.advance.par1Held = s.par1Held := rfl
@[simp] theorem advance_adjHeld : s.advance.adjHeld = s.adjHeld := rfl
@[simp] theorem advance_desc : s.advance.desc = s.desc := rfl
@[simp] theorem advance_cfg : s.advance.cfg = s.cfg := rfl
@[simp] theorem advance_result : s.advance.result = s.result := rfl
@[simp] theorem advance_pos : s.advance.pos = s.pos + 1 := rfl
@[simp] theorem advance_stopped : s.advance.stopped = s.stopped := rfl
@[simp] theorem advance_t : s.advance.t = s.t := rfl
@[simp] theorem advance_rate : s.advance.rate = s.rate := rfl
@[simp] theorem advance_dpT : s.advance.dpT = s.dpT := rfl
@[simp] theorem advance_dpRate : s.advance.dpRate = s.dpRate := rfl
@[simp] theorem advance_dpError : s.advance.dpError = s.dpError := rfl
@[simp] theorem advance_hostProg : s.advance.hostProg = s.hostProg := rfl
@[simp] theorem advance_dpQueue : s.advance.dpQueue = s.dpQueue := rfl
@[simp] theorem advance_dpJob : s.advance.dpJob = s.dpJob := rfl
@[simp] theorem advance_agent : s.advance.agent = s.agent := rfl
@[simp] theorem advance_sched : s.advance.sched = s.sched := rfl
@[simp] theorem advance_txns : s.advance.txns = s.txns := rfl
@[simp] theorem advance_env : s.advance.env = s.env := rfl

/-! ## failedWith -/

@[simp] theorem failedWith_params (k : ErrKind) (g : Stage) :
    (s.failedWith k g).params =
      s.params := rfl
@[simp] theorem failedWith_reg0 (k : ErrKind) (g : Stage) : (s.failedWith k g).reg0 = s.reg0 := rfl
@[simp] theorem failedWith_reg1 (k : ErrKind) (g : Stage) : (s.failedWith k g).reg1 = s.reg1 := rfl
@[simp] theorem failedWith_p0 (k : ErrKind) (g : Stage) : (s.failedWith k g).p0 = s.p0 := rfl
@[simp] theorem failedWith_p1 (k : ErrKind) (g : Stage) : (s.failedWith k g).p1 = s.p1 := rfl
@[simp] theorem failedWith_run0 (k : ErrKind) (g : Stage) : (s.failedWith k g).run0 = s.run0 := rfl
@[simp] theorem failedWith_run1 (k : ErrKind) (g : Stage) : (s.failedWith k g).run1 = s.run1 := rfl
@[simp] theorem failedWith_adjEnabled (k : ErrKind) (g : Stage) :
    (s.failedWith k g).adjEnabled =
      s.adjEnabled := rfl
@[simp] theorem failedWith_chain (k : ErrKind) (g : Stage) :
    (s.failedWith k g).chain =
      s.chain := rfl
@[simp] theorem failedWith_stages (k : ErrKind) (g : Stage) :
    (s.failedWith k g).stages =
      s.stages := rfl
@[simp] theorem failedWith_par0Held (k : ErrKind) (g : Stage) :
    (s.failedWith k g).par0Held =
      s.par0Held := rfl
@[simp] theorem failedWith_par1Held (k : ErrKind) (g : Stage) :
    (s.failedWith k g).par1Held =
      s.par1Held := rfl
@[simp] theorem failedWith_adjHeld (k : ErrKind) (g : Stage) :
    (s.failedWith k g).adjHeld =
      s.adjHeld := rfl
@[simp] theorem failedWith_desc (k : ErrKind) (g : Stage) : (s.failedWith k g).desc = s.desc := rfl
@[simp] theorem failedWith_cfg (k : ErrKind) (g : Stage) : (s.failedWith k g).cfg = s.cfg := rfl
@[simp] theorem failedWith_result (k : ErrKind) (g : Stage) :
    (s.failedWith k g).result =
      .failed k g := rfl
@[simp] theorem failedWith_pos (k : ErrKind) (g : Stage) : (s.failedWith k g).pos = s.pos := rfl
@[simp] theorem failedWith_stopped (k : ErrKind) (g : Stage) :
    (s.failedWith k g).stopped =
      true := rfl
@[simp] theorem failedWith_t (k : ErrKind) (g : Stage) : (s.failedWith k g).t = s.t := rfl
@[simp] theorem failedWith_rate (k : ErrKind) (g : Stage) : (s.failedWith k g).rate = s.rate := rfl
@[simp] theorem failedWith_dpT (k : ErrKind) (g : Stage) : (s.failedWith k g).dpT = s.dpT := rfl
@[simp] theorem failedWith_dpRate (k : ErrKind) (g : Stage) :
    (s.failedWith k g).dpRate =
      s.dpRate := rfl
@[simp] theorem failedWith_dpError (k : ErrKind) (g : Stage) :
    (s.failedWith k g).dpError =
      s.dpError := rfl
@[simp] theorem failedWith_hostProg (k : ErrKind) (g : Stage) :
    (s.failedWith k g).hostProg =
      s.hostProg := rfl
@[simp] theorem failedWith_dpQueue (k : ErrKind) (g : Stage) :
    (s.failedWith k g).dpQueue =
      s.dpQueue := rfl
@[simp] theorem failedWith_dpJob (k : ErrKind) (g : Stage) :
    (s.failedWith k g).dpJob =
      s.dpJob := rfl
@[simp] theorem failedWith_agent (k : ErrKind) (g : Stage) :
    (s.failedWith k g).agent =
      s.agent := rfl
@[simp] theorem failedWith_sched (k : ErrKind) (g : Stage) :
    (s.failedWith k g).sched =
      s.sched := rfl
@[simp] theorem failedWith_txns (k : ErrKind) (g : Stage) : (s.failedWith k g).txns = s.txns := rfl
@[simp] theorem failedWith_env (k : ErrKind) (g : Stage) : (s.failedWith k g).env = s.env := rfl

end Sys2Proof.Machine
end

