-- ==== Sys2Proof/Laws/Ops.lean ====
section
/-! SUPPORT. What the shared operations do, once each: the masked merge, the draws, and
what an operation's outcome can be. -/

namespace Sys2Proof.Machine

/-! ## The masked merge (R85) -/

/-- Bit by bit: inside the mask the value's bit, outside it the old one. -/
@[simp] theorem merge_getElem (t m v : Word) (i : Nat) (hi : i < 32) :
    (merge t m v)[i] = if m[i] then v[i] else t[i] := by
  simp only [merge, BitVec.getElem_or, BitVec.getElem_and, BitVec.getElem_not]
  cases m[i] <;> simp

/-- A merge changes no bit outside its mask. -/
theorem merge_outside (t m v : Word) : merge t m v &&& ~~~m = t &&& ~~~m := by
  apply BitVec.eq_of_getElem_eq
  intro i hi
  cases hm : m[i] <;> simp [hm]

/-- A merge leaves any bits its mask does not meet. -/
theorem merge_keeps {t m v k : Word} (h : m &&& k = 0) : merge t m v &&& k = t &&& k := by
  apply BitVec.eq_of_getElem_eq
  intro i hi
  have hb : (m &&& k)[i] = false := by simp [h]
  rw [BitVec.getElem_and] at hb
  cases hm : m[i] <;> simp_all

/-- Merging the same value again changes nothing. -/
theorem merge_idem (t m v : Word) : merge (merge t m v) m v = merge t m v := by
  apply BitVec.eq_of_getElem_eq
  intro i hi
  cases hm : m[i] <;> simp [hm]

/-! ## Draws (D16) -/

@[simp] theorem popFail_failAt (s : State) (k : Nat) :
    s.popFail.env.failAt k = s.env.failAt (k + 1) := by
  simp [Env.failAt, Nat.add_comm, Nat.add_left_comm]

@[simp] theorem popLookup_lookupAt (s : State) (k : Nat) :
    s.popLookup.env.lookupAt k = s.env.lookupAt (k + 1) := by
  simp [Env.lookupAt, Nat.add_comm, Nat.add_left_comm]

/-! ## Nobody else acts (R53) -/

/-- An empty script of gaps, and no rate set under way, is the premise `exclusive_init`. -/
theorem exclusive_of_nil {s : State} (h : s.env.gaps = []) (hj : s.dpJob = []) : ExclusiveInit s :=
  ⟨fun k => by simp [Env.gapAt, h], hj⟩

/-- The premise is kept where the script is the same and has been read at least as far. -/
theorem ExclusiveInit.mono {s t : State} (h : ExclusiveInit s) (hf : t.env.gaps = s.env.gaps)
    (hg : s.env.nGap ≤ t.env.nGap) (hj : t.dpJob = s.dpJob) : ExclusiveInit t := by
  refine ⟨fun k => ?_, hj.trans h.2⟩
  obtain ⟨d, hd⟩ := Nat.exists_eq_add_of_le hg
  have := h.1 (d + k)
  simpa [Env.gapAt, hf, hd, Nat.add_assoc] using this

/-! ## Outcomes -/

/-- `settle` answers a next state in two ways only. -/
theorem settle_eq_next {r : Res} {t : State} :
    r.settle = .next t ↔
      (∃ s, r = .done s ∧ t = s.complete) ∨ ∃ k g s, r = .raised k g s ∧ t = s.takeRaise k g := by
  cases r <;> simp [Res.settle, eq_comm]

theorem andThen_eq_done {r : Res} {f : State → Res} {t : State} :
    r.andThen f = .done t ↔ ∃ s, r = .done s ∧ f s = .done t := by
  cases r <;> simp [Res.andThen]

theorem andThen_eq_raised {r : Res} {f : State → Res} {k : ErrKind} {g : Stage} {t : State} :
    r.andThen f = .raised k g t ↔
      r = .raised k g t ∨ ∃ s, r = .done s ∧ f s = .raised k g t := by
  cases r <;> simp [Res.andThen]

theorem inStage_eq_done {r : Res} {g : Stage} {t : State} :
    r.inStage g = .done t ↔ r = .done t := by
  cases r <;> simp [Res.inStage]

theorem inStage_eq_raised {r : Res} {g g' : Stage} {k : ErrKind} {t : State} :
    r.inStage g = .raised k g' t ↔ g' = g ∧ ∃ g0, r = .raised k g0 t := by
  cases r <;> simp [Res.inStage]
  constructor
  · rintro ⟨rfl, rfl, rfl⟩; simp
  · rintro ⟨rfl, rfl, rfl⟩; simp

@[simp] theorem done_andThen (s : State) (f : State → Res) : (Res.done s).andThen f = f s := rfl

@[simp] theorem raised_andThen (k : ErrKind) (g : Stage) (s : State) (f : State → Res) :
    (Res.raised k g s).andThen f = .raised k g s := rfl

/-- An operation of HOST: `hostOnly` runs it. -/
theorem hostOnly_host {s : State} (h : s.agent = .host) (op : State → Res) :
    hostOnly s op = (op s).settle := by
  simp [hostOnly, h]

/-- A next state of `hostOnly` is HOST's. -/
theorem hostOnly_eq_next {s t : State} {op : State → Res} :
    hostOnly s op = .next t ↔ s.agent = .host ∧ (op s).settle = .next t := by
  cases h : s.agent <;> simp [hostOnly, h]

theorem rateRequest_host {s : State} (h : s.agent = .host) (n : Node) (op : State → Res) :
    rateRequest s n op = (op s).settle := by
  simp [rateRequest, h]

theorem rateRequest_datapath {s : State} (h : s.agent = .datapath) (hp : s.result = .programmed)
    (op : State → Res) : rateRequest s .rgmiiTxEn op = (op s).settle := by
  simp [rateRequest, h, hp]

/-- A next state of `rateRequest` comes from the operation itself. -/
theorem rateRequest_settle {s t : State} {n : Node} {op : State → Res}
    (h : rateRequest s n op = .next t) : (op s).settle = .next t := by
  unfold rateRequest at h
  split at h
  · exact h
  · split at h
    · exact h
    · cases h

/-- A completed operation of HOST. -/
theorem complete_host {s : State} (h : s.agent = .host) : s.complete = s.advance := by
  simp [State.complete, State.advance, h]

/-- A raise of HOST. -/
theorem takeRaise_host {s : State} (h : s.agent = .host) (k : ErrKind) (g : Stage) :
    s.takeRaise k g = s.failedWith k g := by
  simp [State.takeRaise, State.failedWith, h]

/-- With a chain, `withChain` runs the operation. -/
theorem withChain_built {s : State} {n : Nat} (h : s.chain = .built n) (op : Nat → Res) :
    withChain s op = op n := by
  simp [withChain, h]

theorem withChain_none {s : State} (h : s.chain = .none) (op : Nat → Res) :
    withChain s op = .refused .noChain := by
  simp [withChain, h]

/-- A clock operation that is not refused has a chain. -/
theorem withChain_eq_done {s t : State} {op : Nat → Res} :
    withChain s op = .done t ↔ ∃ n, s.chain = .built n ∧ op n = .done t := by
  cases h : s.chain <;> simp [withChain, h]

theorem withChain_eq_raised {s t : State} {op : Nat → Res} {k : ErrKind} {g : Stage} :
    withChain s op = .raised k g t ↔ ∃ n, s.chain = .built n ∧ op n = .raised k g t := by
  cases h : s.chain <;> simp [withChain, h]

end Sys2Proof.Machine
end

