-- ==== Sys2Proof/Laws/Interleave.lean ====
section
/-! SUPPORT. What the other agents can do between two transactions, once: which fields a gap can
change, what it keeps, and the masked write with and without them. -/

namespace Sys2Proof.Machine

/-! ## What a gap can change (R54, R55) -/

/-- What the other agents may change: PRG_ETH0, the parents' rates, what DATAPATH holds and is told, the
log of transactions, and the draws. -/
def OthersFrame (s t : State) : Prop :=
  t = { s with
    reg0 := t.reg0
    p0 := t.p0
    p1 := t.p1
    dpT := t.dpT
    dpRate := t.dpRate
    dpError := t.dpError
    dpQueue := t.dpQueue
    dpJob := t.dpJob
    txns := t.txns
    env := { s.env with nFail := t.env.nFail, nRate := t.env.nRate, nGap := t.env.nGap } }

theorem OthersFrame.refl (s : State) : OthersFrame s s := rfl

theorem OthersFrame.trans {s t u : State} (h : OthersFrame s t) (k : OthersFrame t u) :
    OthersFrame s u := by
  unfold OthersFrame at *
  rw [h] at k
  simpa using k

/-- What the other agents keep: the parents' rates stay positive, the rate set under way keeps to the
divisor table, and every failure answer they draw takes a request from DATAPATH's queue. -/
structure KeepsDpInv (s t : State) : Prop where
  p0 : 0 < s.p0 → 0 < t.p0
  p1 : 0 < s.p1 → 0 < t.p1
  job : (∀ m, m ∈ s.dpJob → m.ok) → ∀ m, m ∈ t.dpJob → m.ok
  drawn : s.env.nFail ≤ t.env.nFail
  draws : t.env.nFail + t.dpQueue.length ≤ s.env.nFail + s.dpQueue.length

theorem KeepsDpInv.refl (s : State) : KeepsDpInv s s := ⟨id, id, id, le_refl _, le_refl _⟩

theorem KeepsDpInv.trans {s t u : State} (h : KeepsDpInv s t) (k : KeepsDpInv t u) :
    KeepsDpInv s u :=
  ⟨k.p0 ∘ h.p0, k.p1 ∘ h.p1, k.job ∘ h.job, h.drawn.trans k.drawn, k.draws.trans h.draws⟩

/-! ## The outcome of a request (R94, R98, R99) -/

theorem mem_divisors {d : Nat} : d ∈ Config.divisors ↔ 2 ≤ d ∧ d ≤ 7 := by
  simp [Config.divisors]
  omega

theorem roundClosest_mem (P T : Rat) : 2 ≤ roundClosest P T ∧ roundClosest P T ≤ 7 := by
  have key : ∀ l : List Nat, (∀ d ∈ l, 2 ≤ d ∧ d ≤ 7) → ∀ b, 2 ≤ b ∧ b ≤ 7 →
      2 ≤ l.foldl (closer P T) b ∧ l.foldl (closer P T) b ≤ 7 := by
    intro l
    induction l with
    | nil => exact fun _ b hb => hb
    | cons a l ih =>
      intro hl b hb
      refine ih (fun d hd => hl d (by simp [hd])) _ ?_
      unfold closer
      split
      · exact hl a (by simp)
      · exact hb
  exact key _ (by decide) 2 (by decide)

theorem newRate_cases (old : Rat) (o : Option Rat) : newRate old o = old ∨ 0 < newRate old o := by
  unfold newRate
  split
  · split
    · right; assumption
    · left; rfl
  · left; rfl

theorem newRate_pos {old : Rat} (h : 0 < old) (o : Option Rat) : 0 < newRate old o := by
  rcases newRate_cases old o with e | e
  · rw [e]; exact h
  · exact e

/-- Every choice names a member of `Outcomes` (R98). -/
theorem rateOutcome_mem (s : State) (T : Rat) (c : RateChoice) : Outcomes s T (rateOutcome s T c) := by
  refine ⟨?_, newRate_cases _ _, newRate_cases _ _, ?_⟩
  · rw [mem_divisors]
    have hc := c.divLess2.isLt
    have key : ∀ (b : Prop) [Decidable b] (P : Rat),
        2 ≤ (if b then roundClosest P T else c.divLess2.val + 2) ∧
          (if b then roundClosest P T else c.divLess2.val + 2) ≤ 7 := by
      intro b _ P
      split
      · exact roundClosest_mem P T
      · omega
    exact key _ _
  · intro h1 h2
    have h2' : (if c.sel = true then newRate s.p1 c.newP1 else newRate s.p0 c.newP0) =
        s.parentRate c.sel := h2
    have h1' : c.sel = selBit s.reg0 := h1
    simp only [rateOutcome]
    rw [if_pos ⟨h1', h2'⟩, h2']

theorem mem_rateMoves {o : RateOutcome} {c : RateChoice} {m : DpMove} (h : m ∈ rateMoves o c) :
    m = .setSel o.sel c.skipSel ∨ m = .setDiv o.div c.skipDiv := by
  unfold rateMoves at h
  split at h <;> simp at h <;> tauto

/-! ## One move of DATAPATH (R55, R98) -/

@[simp] theorem dpSkips_setSel (s : State) (sel skip : Bool) :
    s.dpSkips (.setSel sel skip) = true ↔ skip = true ∧ selBit s.reg0 = sel := by
  simp [State.dpSkips]

@[simp] theorem dpSkips_setDiv (s : State) (d : Nat) (skip : Bool) :
    s.dpSkips (.setDiv d skip) = true ↔ skip = true ∧ divRaw s.reg0 = d := by
  simp [State.dpSkips]

@[simp] theorem dpSkips_writeSel (s : State) (sel : Bool) : s.dpSkips (.writeSel sel) = false := rfl

@[simp] theorem dpSkips_writeDiv (s : State) (d : Nat) : s.dpSkips (.writeDiv d) = false := rfl

/-- DATAPATH waits for no field where the agent at work holds none (R55). -/
@[simp] theorem dpWaits_zero (s : State) : s.dpWaits 0#32 = false := by
  unfold State.dpWaits
  cases s.dpJob with
  | nil => rfl
  | cons m r => cases m <;> simp [DpMove.mask, selM, divM]

/-- One move of a rate set under way takes a move off, or turns its read half into its write half. -/
theorem dpRun_spec {s : State} (h : s.agent = .datapath) {m : DpMove} {rest : List DpMove}
    (hj : s.dpJob = m :: rest) :
    OthersFrame s (s.dpRun m rest) ∧ KeepsDpInv s (s.dpRun m rest) := by
  have hrest : ∀ u : State, u.dpJob = rest → u.p0 = s.p0 → u.p1 = s.p1 →
      u.env.nFail = s.env.nFail → u.dpQueue = s.dpQueue → KeepsDpInv s u := by
    intro u hu h0 h1 hn hq
    exact ⟨by simp [h0], by simp [h1], fun hk x hx => hk x (by rw [hj]; rw [hu] at hx; simp [hx]),
      hn.ge, by rw [hn, hq]⟩
  cases m with
  | setSel sel skip =>
    simp only [State.dpRun]
    split
    · exact ⟨by simp [OthersFrame], hrest _ rfl rfl rfl rfl rfl⟩
    · refine ⟨by simp [OthersFrame, State.readEth0, State.setT, State.logTxn, h], id, id, ?_, le_refl _, le_refl _⟩
      rintro hk x (_ | ⟨_, hx⟩)
      · trivial
      · exact hk x (by rw [hj]; exact .tail _ hx)
  | setDiv d skip =>
    simp only [State.dpRun]
    split
    · exact ⟨by simp [OthersFrame], hrest _ rfl rfl rfl rfl rfl⟩
    · refine ⟨by simp [OthersFrame, State.readEth0, State.setT, State.logTxn, h], id, id, ?_, le_refl _, le_refl _⟩
      rintro hk x (_ | ⟨_, hx⟩)
      · exact hk (.setDiv d skip) (by rw [hj]; simp)
      · exact hk x (by rw [hj]; exact .tail _ hx)
  | writeSel sel =>
    exact ⟨by simp [OthersFrame, State.dpRun, State.writeEth0, State.logTxn], hrest _ rfl rfl rfl rfl rfl⟩
  | writeDiv d =>
    exact ⟨by simp [OthersFrame, State.dpRun, State.writeEth0, State.logTxn], hrest _ rfl rfl rfl rfl rfl⟩

/-- What the beginning of a request leaves, done or raised, once it has left the queue. -/
theorem beginRequest_spec {s : State} (h : s.agent = .datapath) (w : OpWord) (rest : List OpWord)
    (hq : s.dpQueue = w :: rest) :
    (∀ t, beginRequest w { s with dpQueue := rest } = .done t →
      t.agent = .datapath ∧ OthersFrame s t ∧ KeepsDpInv s t) ∧
    ∀ k g t, beginRequest w { s with dpQueue := rest } = .raised k g t →
      t.agent = .datapath ∧ OthersFrame s t ∧ KeepsDpInv s t := by
  have hlen : s.dpQueue.length = rest.length + 1 := by simp [hq]
  unfold beginRequest
  split
  · refine ⟨fun t ht => ?_, fun k g t ht => ?_⟩
    · obtain ⟨n, _, ht⟩ := withChain_eq_done.1 ht
      cases ht
      exact ⟨h, by simp [OthersFrame, State.readEth0, State.setT, State.setRate, State.logTxn, h],
        id, id, id, le_refl _, by show s.env.nFail + rest.length ≤ _; omega⟩
    · obtain ⟨n, _, ht⟩ := withChain_eq_raised.1 ht
      cases ht
  · refine ⟨fun t ht => ?_, fun k g t ht => ?_⟩
    · obtain ⟨n, _, ht⟩ := withChain_eq_done.1 ht
      split at ht
      · cases ht
      · cases ht
        exact ⟨h, by simp [OthersFrame, State.popRate, State.setRate, h], id, id, id, le_refl _,
          by show s.env.nFail + rest.length ≤ _; omega⟩
    · obtain ⟨n, _, ht⟩ := withChain_eq_raised.1 ht
      split at ht <;> cases ht
  · refine ⟨fun t ht => ?_, fun k g t ht => ?_⟩
    · obtain ⟨n, _, ht⟩ := withChain_eq_done.1 ht
      split at ht
      · cases ht
      · split at ht
        · cases ht
        · cases ht
          refine ⟨h, by simp [OthersFrame, State.popRate, State.popFail], ?_, ?_, ?_, Nat.le_succ _,
            by show s.env.nFail + 1 + rest.length ≤ _; omega⟩
          · exact fun hp => newRate_pos hp _
          · exact fun hp => newRate_pos hp _
          · intro _ m hm
            rcases mem_rateMoves hm with rfl | rfl
            · trivial
            · exact (rateOutcome_mem s _ _).1
    · obtain ⟨n, _, ht⟩ := withChain_eq_raised.1 ht
      split at ht
      · cases ht
      · split at ht
        · cases ht
          exact ⟨h, by simp [OthersFrame, State.popFail], id, id, id, Nat.le_succ _,
            by show s.env.nFail + 1 + rest.length ≤ _; omega⟩
        · cases ht
  · exact ⟨fun t ht => (by cases ht), fun k g t ht => (by cases ht)⟩
  · exact ⟨fun t ht => (by cases ht), fun k g t ht => (by cases ht)⟩

/-- One move of DATAPATH. -/
theorem dpMove_spec {s : State} (h : s.agent = .datapath) :
    OthersFrame s s.dpMove ∧ KeepsDpInv s s.dpMove := by
  unfold State.dpMove
  split
  · unfold State.dpBegin
    split
    · rename_i w rest hq hr
      have hs := beginRequest_spec h w rest hq
      split
      · obtain ⟨ha, hf, hk⟩ := hs.1 _ ‹_›
        refine ⟨hf.trans ?_, hk.trans ⟨id, id, id, le_refl _, le_refl _⟩⟩
        simp [OthersFrame, State.complete, ha]
      · obtain ⟨ha, hf, hk⟩ := hs.2 _ _ _ ‹_›
        refine ⟨hf.trans ?_, hk.trans ⟨id, id, id, le_refl _, le_refl _⟩⟩
        simp [OthersFrame, State.takeRaise, ha]
      · exact ⟨.refl s, .refl s⟩
    · exact ⟨.refl s, .refl s⟩
  · exact dpRun_spec h ‹_›

theorem asDatapath_dpMove_spec (s : State) :
    OthersFrame s (s.asDatapath State.dpMove) ∧ KeepsDpInv s (s.asDatapath State.dpMove) := by
  obtain ⟨hf, hk⟩ := dpMove_spec (s := { s with agent := .datapath }) rfl
  refine ⟨?_, hk.p0, hk.p1, hk.job, hk.drawn, hk.draws⟩
  unfold OthersFrame State.asDatapath at *
  rw [hf]

/-! ## A gap, and the wait for a field -/

theorem intrude_spec (held : Word) (s : State) (x : Intrusion) :
    OthersFrame s (s.intrude held x) ∧ KeepsDpInv s (s.intrude held x) := by
  cases x with
  | write v => exact ⟨by simp [OthersFrame, State.intrude], id, id, id, le_refl _, le_refl _⟩
  | datapath =>
    simp only [State.intrude]
    split
    · exact ⟨.refl s, .refl s⟩
    · exact asDatapath_dpMove_spec s

/-- What a gap can do at all. -/
theorem gap_spec (held : Word) (s : State) : OthersFrame s (s.gap held) ∧ KeepsDpInv s (s.gap held) := by
  have key : ∀ (l : List Intrusion) (u : State), OthersFrame s u → KeepsDpInv s u →
      OthersFrame s (l.foldl (State.intrude held) u) ∧ KeepsDpInv s (l.foldl (State.intrude held) u) := by
    intro l
    induction l with
    | nil => exact fun u h k => ⟨h, k⟩
    | cons x l ih =>
      intro u h k
      have hx := intrude_spec held u x
      exact ih _ (h.trans hx.1) (k.trans hx.2)
  exact key _ _ (by simp [OthersFrame]) ⟨id, id, id, le_refl _, le_refl _⟩

/-- A rate request that waits for DATAPATH lets it make its next move. -/
theorem yieldField_cases (held : Word) (s : State) :
    s.yieldField held = s ∨ s.yieldField held = s.asDatapath State.dpMove := by
  have hm : ∀ m rest, s.dpJob = m :: rest →
      s.asDatapath (fun u => u.dpRun m rest) = s.asDatapath State.dpMove := by
    intro m rest h
    simp [State.asDatapath, State.dpMove, h]
  unfold State.yieldField
  split
  · split
    · exact .inr (hm _ _ ‹_›)
    · exact .inl rfl
  · split
    · exact .inr (hm _ _ ‹_›)
    · exact .inl rfl
  · exact .inl rfl

theorem yieldField_spec (held : Word) (s : State) :
    OthersFrame s (s.yieldField held) ∧ KeepsDpInv s (s.yieldField held) := by
  rcases yieldField_cases held s with h | h <;> rw [h]
  · exact ⟨.refl s, .refl s⟩
  · exact asDatapath_dpMove_spec s

/-- A relation that each thing another agent can do keeps, is kept by a gap and by a wait. -/
structure OtherMoves (R : State → State → Prop) : Prop where
  refl : ∀ s, R s s
  trans : ∀ s t u, R s t → R t u → R s u
  write : ∀ u v, R u { u with reg0 := v }
  datapath : ∀ u, R u (u.asDatapath State.dpMove)
  place : ∀ u, R u { u with env := { u.env with nGap := u.env.nGap + 1 } }

theorem OtherMoves.gap {R : State → State → Prop} (hR : OtherMoves R) (held : Word) (s : State) :
    R s (s.gap held) := by
  have key : ∀ (l : List Intrusion) (u : State), R s u → R s (l.foldl (State.intrude held) u) := by
    intro l
    induction l with
    | nil => exact fun u h => h
    | cons x l ih =>
      intro u h
      refine ih _ (hR.trans _ _ _ h ?_)
      cases x with
      | write v => exact hR.write u v
      | datapath =>
        simp only [State.intrude]
        split
        · exact hR.refl u
        · exact hR.datapath u
  exact key _ _ (hR.place s)

theorem OtherMoves.yieldField {R : State → State → Prop} (hR : OtherMoves R) (held : Word) (s : State) :
    R s (s.yieldField held) := by
  rcases yieldField_cases held s with h | h <;> rw [h]
  · exact hR.refl s
  · exact hR.datapath s

/-! ## The masked write -/

/-- What a masked write can change: what the other agents may, and the issuing agent's temporary. -/
def MwFrame (s t : State) : Prop :=
  t = { s with
    reg0 := t.reg0
    p0 := t.p0
    p1 := t.p1
    t := t.t
    dpT := t.dpT
    dpRate := t.dpRate
    dpError := t.dpError
    dpQueue := t.dpQueue
    dpJob := t.dpJob
    txns := t.txns
    env := { s.env with nFail := t.env.nFail, nRate := t.env.nRate, nGap := t.env.nGap } }

theorem MwFrame.refl (s : State) : MwFrame s s := rfl

theorem MwFrame.trans {s t u : State} (h : MwFrame s t) (k : MwFrame t u) : MwFrame s u := by
  unfold MwFrame at *
  rw [h] at k
  simpa using k

theorem OthersFrame.mwFrame {s t : State} (h : OthersFrame s t) : MwFrame s t := by
  unfold OthersFrame MwFrame at *
  rw [h]

theorem MwFrame.of_readEth0 (s : State) : MwFrame s s.readEth0 := rfl

theorem MwFrame.of_writeEth0 (s : State) (v : Word) : MwFrame s (s.writeEth0 v) := rfl

/-- What a masked write can do at all. -/
theorem mwHeld_spec (held m v : Word) (s : State) :
    MwFrame s (s.mwHeld held m v) ∧ KeepsDpInv s (s.mwHeld held m v) := by
  have hg := gap_spec 0 s
  have hy := yieldField_spec held (s.gap 0)
  have hg' := gap_spec held ((s.gap 0).yieldField held).readEth0
  refine ⟨(hg.1.mwFrame.trans hy.1.mwFrame).trans ?_,
    (hg.2.trans hy.2).trans (KeepsDpInv.trans ?_ (hg'.2.trans ?_))⟩
  · exact (MwFrame.of_readEth0 _).trans (hg'.1.mwFrame.trans (MwFrame.of_writeEth0 _ _))
  · exact ⟨id, id, id, le_refl _, le_refl _⟩
  · exact ⟨id, id, id, le_refl _, le_refl _⟩

/-- A relation kept by what other agents do, and by one read and one write, is kept by a masked
write. -/
theorem OtherMoves.mwHeld {R : State → State → Prop} (hR : OtherMoves R) (hr : ∀ u, R u u.readEth0)
    (hw : ∀ u v, R u (u.writeEth0 v)) (held m v : Word) (s : State) : R s (s.mwHeld held m v) :=
  hR.trans _ _ _ (hR.gap 0 s) (hR.trans _ _ _ (hR.yieldField held _)
    (hR.trans _ _ _ (hr _) (hR.trans _ _ _ (hR.gap held _) (hw _ _))))

/-- Answers that do not fail go on not failing while the other agents draw theirs: each of DATAPATH's
takes a request from its queue. -/
theorem KeepsDpInv.noFailure {s t : State} (h : KeepsDpInv s t) (hf : t.env.fails = s.env.fails) {k : Nat}
    (hn : NoFailure s (k + s.dpQueue.length)) : NoFailure t (k + t.dpQueue.length) := by
  intro j hj
  obtain ⟨d, hd⟩ := Nat.exists_eq_add_of_le h.drawn
  have hd' := h.draws
  have := hn (d + j) (by omega)
  simpa [Env.failAt, hf, hd, Nat.add_assoc] using this

/-- The word a masked write leaves: the word it read, with the field replaced (R50, R85). -/
@[simp] theorem mwHeld_reg0 (held m v : Word) (s : State) :
    (s.mwHeld held m v).reg0 = merge ((s.gap 0).yieldField held).reg0 m v := rfl

/-- Who holds no field waits for nobody. -/
theorem yieldField_zero (s : State) : s.yieldField 0 = s := by
  unfold State.yieldField
  split <;> simp [selM, divM]

@[simp] theorem mwEth0_reg0 (s : State) (m v : Word) :
    (s.mwEth0 m v).reg0 = merge (s.gap 0).reg0 m v := by
  show merge ((s.gap 0).yieldField 0).reg0 m v = _
  rw [yieldField_zero]

section
variable (held m v : Word) (s : State)

@[simp] theorem gap_params : (s.gap held).params = s.params := by rw [(gap_spec held s).1]
@[simp] theorem gap_reg1 : (s.gap held).reg1 = s.reg1 := by rw [(gap_spec held s).1]
@[simp] theorem gap_run0 : (s.gap held).run0 = s.run0 := by rw [(gap_spec held s).1]
@[simp] theorem gap_run1 : (s.gap held).run1 = s.run1 := by rw [(gap_spec held s).1]
@[simp] theorem gap_adjEnabled : (s.gap held).adjEnabled = s.adjEnabled := by rw [(gap_spec held s).1]
@[simp] theorem gap_chain : (s.gap held).chain = s.chain := by rw [(gap_spec held s).1]
@[simp] theorem gap_stages : (s.gap held).stages = s.stages := by rw [(gap_spec held s).1]
@[simp] theorem gap_desc : (s.gap held).desc = s.desc := by rw [(gap_spec held s).1]
@[simp] theorem gap_cfg : (s.gap held).cfg = s.cfg := by rw [(gap_spec held s).1]
@[simp] theorem gap_result : (s.gap held).result = s.result := by rw [(gap_spec held s).1]
@[simp] theorem gap_pos : (s.gap held).pos = s.pos := by rw [(gap_spec held s).1]
@[simp] theorem gap_stopped : (s.gap held).stopped = s.stopped := by rw [(gap_spec held s).1]
@[simp] theorem gap_t : (s.gap held).t = s.t := by rw [(gap_spec held s).1]
@[simp] theorem gap_hostProg : (s.gap held).hostProg = s.hostProg := by rw [(gap_spec held s).1]
@[simp] theorem gap_agent : (s.gap held).agent = s.agent := by rw [(gap_spec held s).1]

@[simp] theorem mwHeld_params : (s.mwHeld held m v).params = s.params := by rw [(mwHeld_spec held m v s).1]
@[simp] theorem mwHeld_reg1 : (s.mwHeld held m v).reg1 = s.reg1 := by rw [(mwHeld_spec held m v s).1]
@[simp] theorem mwHeld_run0 : (s.mwHeld held m v).run0 = s.run0 := by rw [(mwHeld_spec held m v s).1]
@[simp] theorem mwHeld_run1 : (s.mwHeld held m v).run1 = s.run1 := by rw [(mwHeld_spec held m v s).1]
@[simp] theorem mwHeld_adjEnabled : (s.mwHeld held m v).adjEnabled = s.adjEnabled := by
  rw [(mwHeld_spec held m v s).1]
@[simp] theorem mwHeld_chain : (s.mwHeld held m v).chain = s.chain := by rw [(mwHeld_spec held m v s).1]
@[simp] theorem mwHeld_stages : (s.mwHeld held m v).stages = s.stages := by rw [(mwHeld_spec held m v s).1]
@[simp] theorem mwHeld_desc : (s.mwHeld held m v).desc = s.desc := by rw [(mwHeld_spec held m v s).1]
@[simp] theorem mwHeld_cfg : (s.mwHeld held m v).cfg = s.cfg := by rw [(mwHeld_spec held m v s).1]
@[simp] theorem mwHeld_result : (s.mwHeld held m v).result = s.result := by rw [(mwHeld_spec held m v s).1]
@[simp] theorem mwHeld_pos : (s.mwHeld held m v).pos = s.pos := by rw [(mwHeld_spec held m v s).1]
@[simp] theorem mwHeld_stopped : (s.mwHeld held m v).stopped = s.stopped := by
  rw [(mwHeld_spec held m v s).1]
@[simp] theorem mwHeld_hostProg : (s.mwHeld held m v).hostProg = s.hostProg := by
  rw [(mwHeld_spec held m v s).1]
@[simp] theorem mwHeld_agent : (s.mwHeld held m v).agent = s.agent := by rw [(mwHeld_spec held m v s).1]

end

section
variable (s : State) (m v : Word)

@[simp] theorem mwEth0_params : (s.mwEth0 m v).params = s.params := mwHeld_params 0 m v s
@[simp] theorem mwEth0_reg1 : (s.mwEth0 m v).reg1 = s.reg1 := mwHeld_reg1 0 m v s
@[simp] theorem mwEth0_run0 : (s.mwEth0 m v).run0 = s.run0 := mwHeld_run0 0 m v s
@[simp] theorem mwEth0_run1 : (s.mwEth0 m v).run1 = s.run1 := mwHeld_run1 0 m v s
@[simp] theorem mwEth0_adjEnabled : (s.mwEth0 m v).adjEnabled = s.adjEnabled := mwHeld_adjEnabled 0 m v s
@[simp] theorem mwEth0_chain : (s.mwEth0 m v).chain = s.chain := mwHeld_chain 0 m v s
@[simp] theorem mwEth0_stages : (s.mwEth0 m v).stages = s.stages := mwHeld_stages 0 m v s
@[simp] theorem mwEth0_desc : (s.mwEth0 m v).desc = s.desc := mwHeld_desc 0 m v s
@[simp] theorem mwEth0_cfg : (s.mwEth0 m v).cfg = s.cfg := mwHeld_cfg 0 m v s
@[simp] theorem mwEth0_result : (s.mwEth0 m v).result = s.result := mwHeld_result 0 m v s
@[simp] theorem mwEth0_pos : (s.mwEth0 m v).pos = s.pos := mwHeld_pos 0 m v s
@[simp] theorem mwEth0_stopped : (s.mwEth0 m v).stopped = s.stopped := mwHeld_stopped 0 m v s
@[simp] theorem mwEth0_hostProg : (s.mwEth0 m v).hostProg = s.hostProg := mwHeld_hostProg 0 m v s
@[simp] theorem mwEth0_agent : (s.mwEth0 m v).agent = s.agent := mwHeld_agent 0 m v s

end

/-! ## Nobody else acts (R53) -/

/-- A place where nobody acts is only counted. -/
theorem gap_alone {s : State} (h : s.env.gapAt 0 = []) (held : Word) :
    s.gap held = { s with env := { s.env with nGap := s.env.nGap + 1 } } := by
  simp [State.gap, h]

theorem yieldField_alone {s : State} (h : s.dpJob = []) (held : Word) : s.yieldField held = s := by
  simp [State.yieldField, h]

/-- The one thing a masked write does when no other agent acts: what `State.afterMw` says for HOST, and
the same with the other agent's temporary for DATAPATH. -/
theorem mwHeld_exclusive {s : State} (h : ExclusiveInit s) (held m v : Word) :
    s.mwHeld held m v = { s with
      reg0 := merge s.reg0 m v
      t := if s.agent = .host then s.reg0 else s.t
      dpT := if s.agent = .host then s.dpT else s.reg0
      txns := s.txns ++ [⟨s.agent, .read, 0, s.reg0⟩, ⟨s.agent, .write, 0, merge s.reg0 m v⟩]
      env := { s.env with nGap := s.env.nGap + 2 } } := by
  have hg := gap_alone (h.1 0) 0
  have hy := yieldField_alone (s := s.gap 0) (by rw [hg]; exact h.2) held
  have hk : (s.gap 0).readEth0.env.gapAt 0 = [] := by
    rw [hg]
    exact h.1 1
  show (((s.gap 0).yieldField held).readEth0.gap held).writeEth0
    (merge ((s.gap 0).yieldField held).reg0 m v) = _
  rw [hy, gap_alone hk, hg]
  simp [State.readEth0, State.writeEth0, State.setT, State.logTxn]

theorem mwHeld_alone {s : State} (h : HostAlone s) (held m v : Word) :
    s.mwHeld held m v = s.afterMw m v := by
  rw [mwHeld_exclusive h.2]
  simp [State.afterMw, merge, h.1]

/-- The one thing MW does when HOST is alone on the bus. -/
theorem mwEth0_alone {s : State} (h : HostAlone s) (m v : Word) : s.mwEth0 m v = s.afterMw m v :=
  mwHeld_alone h 0 m v

theorem hostAlone_afterMw {s : State} (h : HostAlone s) (m v : Word) : HostAlone (s.afterMw m v) :=
  ⟨h.1, h.2.mono rfl (by simp) rfl⟩

theorem exclusive_gap {s : State} (h : ExclusiveInit s) (held : Word) : ExclusiveInit (s.gap held) := by
  rw [gap_alone (h.1 0)]
  exact h.mono rfl (Nat.le_succ _) rfl

theorem exclusive_mwHeld {s : State} (h : ExclusiveInit s) (held m v : Word) :
    ExclusiveInit (s.mwHeld held m v) := by
  rw [mwHeld_exclusive h]
  exact h.mono rfl (by simp) rfl

end Sys2Proof.Machine
end

