-- ==== Sys2Proof/Laws/Outcome.lean ====
section
/-! SUPPORT. One induction for all sub-operations: a relation between states that is reflexive and
transitive, and that the elementary moves of an operation keep, holds between the state an
operation starts in and the state it is done or raises in. The provers instantiate the relation. -/

namespace Sys2Proof.Machine

/-- The state an outcome carries, done or raised, has the property. -/
def Res.All (P : State → Prop) : Res → Prop
  | .done s => P s
  | .raised _ _ s => P s
  | .refused _ => True

@[simp] theorem Res.all_done {P : State → Prop} {s : State} : (Res.done s).All P ↔ P s := Iff.rfl

@[simp] theorem Res.all_raised {P : State → Prop} {k : ErrKind} {g : Stage} {s : State} :
    (Res.raised k g s).All P ↔ P s := Iff.rfl

@[simp] theorem Res.all_refused {P : State → Prop} {e : Refusal} : (Res.refused e).All P ↔ True :=
  Iff.rfl

theorem Res.All.mono {P Q : State → Prop} {r : Res} (h : r.All P) (hQ : ∀ s, P s → Q s) :
    r.All Q := by
  cases r with
  | done s => exact hQ s h
  | raised k g s => exact hQ s h
  | refused e => trivial

theorem Res.All.inStage {P : State → Prop} {r : Res} (h : r.All P) (g : Stage) :
    (r.inStage g).All P := by
  cases r <;> exact h

theorem Res.All.andThen {P Q : State → Prop} {r : Res} {f : State → Res} (h : r.All P)
    (hQ : ∀ s, P s → Q s) (hf : ∀ s, P s → (f s).All Q) : (r.andThen f).All Q := by
  cases r with
  | done s => exact hf s h
  | raised k g s => exact hQ s h
  | refused e => trivial

/-- What the state a next state comes from was. -/
theorem settle_all {P : State → Prop} {r : Res} {t : State} (h : r.All P) (ht : r.settle = .next t) :
    ∃ u, P u ∧ (t = u.complete ∨ ∃ k g, t = u.takeRaise k g) := by
  rcases settle_eq_next.1 ht with ⟨u, rfl, rfl⟩ | ⟨k, g, u, rfl, rfl⟩
  · exact ⟨u, h, .inl rfl⟩
  · exact ⟨u, h, .inr ⟨k, g, rfl⟩⟩

theorem withChain_all {s : State} {op : Nat → Res} {P : State → Prop}
    (h : ∀ n, s.chain = .built n → (op n).All P) : (withChain s op).All P := by
  unfold withChain
  split
  · trivial
  · exact h _ ‹_›

theorem mem_withStage {l : List Node} {n m : Node} : m ∈ withStage l n ↔ m ∈ l ∨ m = n := by
  unfold withStage
  split
  · constructor
    · exact .inl
    · rintro (h | rfl) <;> assumption
  · simp

/-- A registration that is done adds its stage and loses none (R87). -/
theorem registerStage_done {n : Node} {s t : State} (h : Machine.registerStage n s = .done t) :
    n ∈ t.stages ∧ ∀ m, m ∈ s.stages → m ∈ t.stages := by
  unfold Machine.registerStage at h
  split at h
  · cases h
  · cases h
    exact ⟨by simp [mem_withStage], fun m hm => by simp [mem_withStage, hm]⟩

/-- A reflexive and transitive relation between states. -/
structure Steady (R : State → State → Prop) : Prop where
  refl : ∀ s, R s s
  trans : ∀ s t u, R s t → R t u → R s u

section
variable {R : State → State → Prop} (hR : Steady R)
include hR

/-- The relation runs through a sequence of sub-operations. -/
theorem Steady.andThen {s : State} {r : Res} {f : State → Res} (h : r.All (R s))
    (hf : ∀ u, R s u → (f u).All (R u)) : (r.andThen f).All (R s) :=
  Res.All.andThen h (fun _ hu => hu) (fun u hu => (hf u hu).mono (fun v hv => hR.trans s u v hu hv))

theorem Steady.lookupParent0 (hl : ∀ u, R u u.popLookup)
    (hp : ∀ u, R u { u with par0Held := true }) (s : State) : (lookupParent0 s).All (R s) := by
  unfold Machine.lookupParent0
  split
  · exact hR.trans _ _ _ (hl s) (hp _)
  · exact hl s
  · exact hl s

theorem Steady.lookupParent1 (hl : ∀ u, R u u.popLookup)
    (hp : ∀ u, R u { u with par1Held := true }) (s : State) : (lookupParent1 s).All (R s) := by
  unfold Machine.lookupParent1
  split
  · exact hR.trans _ _ _ (hl s) (hp _)
  · exact hl s
  · exact hl s

theorem Steady.registerStage (hf : ∀ u, R u u.popFail)
    (hs : ∀ u n, R u { u with stages := withStage u.stages n })
    (n : Node) (s : State) : (registerStage n s).All (R s) := by
  unfold Machine.registerStage
  split
  · exact hf s
  · exact hR.trans _ _ _ (hf s) (hs _ n)

/-- CHAIN.BUILD (R87): draws, handles, stages, and, with all four stages registered, the chain's own
state. -/
theorem Steady.buildChain (hl : ∀ u, R u u.popLookup) (hf : ∀ u, R u u.popFail)
    (h0 : ∀ u, R u { u with par0Held := true }) (h1 : ∀ u, R u { u with par1Held := true })
    (hs : ∀ u n, R u { u with stages := withStage u.stages n })
    (hc : ∀ u, (∀ n, n ∈ u.stages) → R u { u with chain := .built 0 }) (s : State) :
    (buildChain s).All (R s) := by
  unfold Machine.buildChain
  have hpre : ∀ u, (((Machine.lookupParent0 u).andThen Machine.lookupParent1)).All (R u) :=
    fun u => hR.andThen (hR.lookupParent0 hl h0 u) (fun v _ => hR.lookupParent1 hl h1 v)
  generalize hr : (Machine.lookupParent0 s).andThen Machine.lookupParent1 = r
  have hr' := hr ▸ hpre s
  have step : ∀ (n : Node) (r : Res), r.All (R s) →
      (r.andThen (Machine.registerStage n)).All (R s) :=
    fun n r h => hR.andThen h (fun u _ => hR.registerStage hf hs n u)
  have h4 := step .rgmiiTxEn _ (step .fixedDiv2 _ (step .m250Div _ (step .m250Sel r hr')))
  revert h4
  generalize he : (((r.andThen (Machine.registerStage .m250Sel)).andThen
    (Machine.registerStage .m250Div)).andThen (Machine.registerStage .fixedDiv2)).andThen
    (Machine.registerStage .rgmiiTxEn) = e
  intro h4
  cases e with
  | done u =>
    refine hR.trans _ _ _ h4 (hc u ?_)
    obtain ⟨a3, he, h5⟩ := andThen_eq_done.1 he
    obtain ⟨a2, he, h6⟩ := andThen_eq_done.1 he
    obtain ⟨a1, he, h7⟩ := andThen_eq_done.1 he
    obtain ⟨a0, he, h8⟩ := andThen_eq_done.1 he
    have h5 := registerStage_done h5
    have h6 := registerStage_done h6
    have h7 := registerStage_done h7
    have h8 := registerStage_done h8
    intro n
    cases n
    · exact h5.2 _ (h6.2 _ (h7.2 _ h8.1))
    · exact h5.2 _ (h6.2 _ h7.1)
    · exact h5.2 _ h6.1
    · exact h5.1
  | raised k g u => exact h4
  | refused e => trivial

/-- The writes of a rate request (R98): only the select and the divisor. -/
theorem Steady.rateWrites (hg : ∀ u, R u (u.gap 0)) (hsel : ∀ u v, R u (u.mwHeld selM selM v))
    (hdiv : ∀ u v, R u (u.mwHeld divM divM v)) (s : State) (o : RateOutcome) (c : RateChoice) :
    R s (s.rateWrites o c) := by
  have hs : ∀ u b, R u (u.rateSel o b) := by
    intro u b
    unfold State.rateSel
    split
    · exact hg u
    · exact hsel u _
  have hd : ∀ u b, R u (u.rateDiv o b) := by
    intro u b
    unfold State.rateDiv
    split
    · exact hg u
    · exact hdiv u _
  unfold State.rateWrites
  split
  · exact hR.trans _ _ _ (hd _ _) (hs _ _)
  · exact hR.trans _ _ _ (hs _ _) (hd _ _)

/-- A rate request that is not failed (R98, R99): a draw, the parents' rates, and the writes. -/
theorem Steady.applyRate (hg : ∀ u, R u (u.gap 0)) (hr : ∀ u, R u u.popRate)
    (hp : ∀ u a b, R u { u with p0 := newRate u.p0 a, p1 := newRate u.p1 b })
    (hsel : ∀ u v, R u (u.mwHeld selM selM v)) (hdiv : ∀ u v, R u (u.mwHeld divM divM v))
    (s : State) (hz : Nat) : R s (s.applyRate hz) := by
  unfold State.applyRate
  exact hR.trans _ _ _ (hr s) (hR.trans _ _ _
    (hp s.popRate s.env.rateNow.newP0 s.env.rateNow.newP1) (hR.rateWrites hg hsel hdiv _ _ _))

/-- CLK.SET_RATE (R98). -/
theorem Steady.setRate (hf : ∀ u, R u u.popFail) (hg : ∀ u, R u (u.gap 0)) (hr : ∀ u, R u u.popRate)
    (hp : ∀ u a b, R u { u with p0 := newRate u.p0 a, p1 := newRate u.p1 b })
    (hsel : ∀ u v, R u (u.mwHeld selM selM v)) (hdiv : ∀ u v, R u (u.mwHeld divM divM v))
    (node : Node) (hz : Nat) (s : State) : (setRate node hz s).All (R s) := by
  unfold Machine.setRate
  split
  · trivial
  · refine withChain_all (fun n _ => ?_)
    split
    · trivial
    · split
      · exact hf s
      · exact hR.trans _ _ _ (hf s) (hR.applyRate hg hr hp hsel hdiv _ _)

/-- CLK.ENABLE (R101): a draw, the first opening of the gate, and the count. -/
theorem Steady.enableChain (hf : ∀ u, R u u.popFail)
    (hg : ∀ u, u.chain = .built 0 → R u { u.openGate with chain := .built 1 })
    (hc : ∀ u n, u.chain = .built (n + 1) → R u { u with chain := .built (n + 2) })
    (node : Node) (s : State) : (enableChain node s).All (R s) := by
  unfold Machine.enableChain
  split
  · trivial
  · refine withChain_all (fun n hn => ?_)
    dsimp only
    split
    · exact hf s
    · split
      · subst n
        exact hR.trans _ _ _ (hf s) (hg _ hn)
      · obtain ⟨m, rfl⟩ := Nat.exists_eq_succ_of_ne_zero ‹_›
        exact hR.trans _ _ _ (hf s) (hc s.popFail m hn)

/-- `n` disables of a chain with `n` enables outstanding, and where they wrote a gap; then the chain is
gone (R102, R104). -/
theorem Steady.dropChain (hg : ∀ u, R u (u.gap 0))
    (hn : ∀ u n, u.chain = .built (n + 1) → R u (u.disableTo n))
    (hc : ∀ u, R u { u with chain := .none, stages := [] }) :
    ∀ (n : Nat) (s : State), s.chain = .built n → R s (s.dropChain n) := by
  have key : ∀ (n : Nat) (s : State), s.chain = .built n → R s (State.disableAll n s) := by
    intro n
    induction n with
    | zero => exact fun s _ => hR.refl s
    | succ n ih =>
      intro s hs
      refine hR.trans _ _ _ (hn s n hs) (ih _ ?_)
      unfold State.disableTo
      split <;> simp [*]
  refine fun n s hs => hR.trans _ _ _ ?_ (hc _)
  unfold State.gateOff
  split
  · exact hR.refl s
  · exact hR.trans _ _ _ (key n s hs) (hg _)

/-- ADJ.ENABLE (R113, R118): a draw, and the adjustment clock started or not. -/
theorem Steady.startAdj (hf : ∀ u, R u u.popFail) (ha : ∀ u b, R u { u with adjEnabled := b })
    (left : Bool) (s : State) : (startAdj left s).All (R s) := by
  unfold Machine.startAdj
  split
  · exact hR.refl s
  · split
    · exact hR.trans _ _ _ (hf s) (ha _ _)
    · exact hR.trans _ _ _ (hf s) (ha _ _)

/-- PHYMODE.APPLY (R105): the one masked write of the mode field. -/
theorem Steady.applyPhyMode (mode : PhyMode) (family : Family) (s : State)
    (hm : ∀ m v, modePair family mode = some (m, v) → R s (s.mwEth0 m v)) :
    (applyPhyMode mode family s).All (R s) := by
  unfold Machine.applyPhyMode
  split
  · exact hm _ _ ‹_›
  · exact hR.refl s

/-- Steps 4 to 7 of TIMING.APPLY (R113 to R117). -/
theorem Steady.timingSteps (hf : ∀ u, R u u.popFail) (hg : ∀ u, R u (u.gap 0))
    (ha : ∀ u b, R u { u with adjEnabled := b })
    (hd : ∀ u dc, R u (u.writeDelay dc)) (hi : ∀ u v, R u (u.mwEth0 invM v))
    (href : ∀ u, R u u.writeRef) (hrate : ∀ u, (Machine.setRate .rgmiiTxEn Config.txRate u).All (R u))
    (hen : ∀ u, (Machine.enableChain .rgmiiTxEn u).All (R u))
    (mode : PhyMode) (dc rxf : Word) (s : State) : (timingSteps mode dc rxf s).All (R s) := by
  unfold Machine.timingSteps
  refine hR.andThen (hR.andThen (hR.andThen ?_ (fun u _ => hd u dc)) (fun u _ => ?_))
    (fun u _ => href u)
  · unfold adjCheck
    split
    · exact hR.startAdj hf ha false s
    · exact hR.refl s
  · unfold clockStep
    split
    · unfold rgmiiClock
      refine hR.andThen ((hrate _).mono (fun v hv => ?_)) (fun v _ => (hen _).mono (fun w hw => ?_))
      · exact hR.trans _ _ _ (hR.trans _ _ _ (hi u _) (hg _)) hv
      · exact hR.trans _ _ _ (hg v) hw
    · exact hi u _

/-- TIMING.APPLY (R109). -/
theorem Steady.applyTiming
    (ht : ∀ u dc rxf mode, (Machine.timingSteps mode dc rxf u).All (R u))
    (mode : PhyMode) (tx rx : Word) (s : State) : (applyTiming mode tx rx s).All (R s) := by
  unfold Machine.applyTiming
  refine withChain_all (fun n _ => ?_)
  split
  · trivial
  · split
    · exact hR.refl s
    · exact (ht _ _ _ _).inStage _

/-- The steps of ORCH.INIT after acquisition (R122). -/
theorem Steady.configure (ha : ∀ u, R u u.popAdj)
    (hh : ∀ u, R u { u with adjHeld := true })
    (hb : ∀ u, (Machine.buildChain u).All (R u))
    (c : Cfg) (hcfg : ∀ u a, u.cfg = some c → R u { u with cfg := some { c with adjClk := a } })
    (hm : ∀ u, (Machine.applyPhyMode c.mode c.family u).All (R u))
    (ht : ∀ u, (Machine.applyTiming c.mode c.txDelay c.rxDelay u).All (R u)) (s : State)
    (hs : s.cfg = some c) : (configure c s).All (R s) := by
  unfold Machine.configure
  refine hR.andThen (hR.andThen (hR.andThen ?_ (fun u _ => hb u)) (fun u _ => hm u)) (fun u _ => ht u)
  have ho : (acquireAdj c s).All (R s) := by
    unfold acquireAdj
    split
    · exact hR.trans _ _ _ (ha s) (hcfg _ _ hs)
    · exact hR.trans _ _ _ (ha s) (hR.trans _ _ _ (hcfg s.popAdj _ hs) (hh _))
    · exact ha s
    · exact ha s
  unfold validateDelay
  split
  · exact ho
  · exact hR.refl s

end

end Sys2Proof.Machine
end

