-- ==== Sys2Proof/Laws/ClockChain.lean ====
section
/-! SUPPORT. What the operations on the clock chain do, once each: the fields of the divider and the
select, the outcomes of a rate request, and every way CHAIN.BUILD, CLK.SET_RATE, CLK.ENABLE and
CLK.DISABLE can go. -/

namespace Sys2Proof.Machine

/-! ## The divider and the select -/

theorem divField_eq {d : Nat} (h : d < 8) : divField d = BitVec.ofNat 32 (128 * d) := by
  interval_cases d <;> rfl

theorem selField_eq {i : Nat} (h : i < 2) : selField i = BitVec.ofNat 32 (16 * i) := by
  interval_cases i <;> rfl

/-- The raw divider value reads back the divisor that was written (R97). -/
theorem divRaw_merge (w : Word) {d : Nat} (h : d < 8) : divRaw (merge w divM (divField d)) = d := by
  have : fieldGet divM 7 (merge w divM (divField d)) = BitVec.ofNat 32 d := by
    rw [divField_eq h]
    unfold fieldGet divM
    apply BitVec.eq_of_getLsbD_eq
    intro i hi
    interval_cases d <;> interval_cases i <;> simp [merge]
  simp [divRaw, this]
  omega

/-- The select reads back the index that was written (R96). -/
theorem selBit_merge (w : Word) (b : Bool) : selBit (merge w selM (selField b.toNat)) = b := by
  cases b <;> simp [selBit, merge, selM, selField, fieldPrep]

/-- Writing the select leaves the divider, and the reverse (R98). -/
theorem divRaw_merge_sel (w v : Word) : divRaw (merge w selM v) = divRaw w := by
  have h : merge w selM v &&& divM = w &&& divM := merge_keeps (by rfl)
  simp [divRaw, fieldGet, h]

theorem selBit_merge_div (w v : Word) : selBit (merge w divM v) = selBit w := by
  simp [selBit, merge, divM]

theorem divRaw_lt (w : Word) : divRaw w < 8 := by
  have h : fieldGet divM 7 w = ((w >>> 7).setWidth 3).setWidth 32 := by
    unfold fieldGet divM
    apply BitVec.eq_of_getLsbD_eq
    intro i hi
    interval_cases i <;> simp
  have := ((w >>> 7).setWidth 3).isLt
  simp only [divRaw, h, BitVec.toNat_setWidth]
  simp only [BitVec.toNat_setWidth] at this
  omega

/-! ## Rate requests (R94, R98, R99) -/

/-- The outcome under the reference resolver's choice (R100). -/
theorem rateOutcome_reference (s : State) (T : Rat) :
    rateOutcome s T (referenceChoice s.reg0) =
      ⟨selBit s.reg0, s.p0, s.p1, roundClosest (s.parentRate (selBit s.reg0)) T⟩ := by
  cases h : selBit s.reg0 <;> simp [rateOutcome, referenceChoice, newRate, State.parentRate, h]

/-! ## CHAIN.BUILD (R87) -/

theorem lookupParent0_ok {s : State} (h : s.env.lookupAt 0 = .ok) :
    lookupParent0 s = .done { s.popLookup with par0Held := true } := by
  simp [lookupParent0, h]

theorem lookupParent1_ok {s : State} (h : s.env.lookupAt 0 = .ok) :
    lookupParent1 s = .done { s.popLookup with par1Held := true } := by
  simp [lookupParent1, h]

theorem lookupParent0_transient {s : State} (h : s.env.lookupAt 0 = .transient) :
    lookupParent0 s =
      .raised (.clockAcquisitionFailed .transient .parent0) .chainBuild s.popLookup := by
  simp [lookupParent0, h]

theorem lookupParent0_permanent {s : State} (h : s.env.lookupAt 0 = .permanent) :
    lookupParent0 s =
      .raised (.clockAcquisitionFailed .permanent .parent0) .chainBuild s.popLookup := by
  simp [lookupParent0, h]

theorem lookupParent1_transient {s : State} (h : s.env.lookupAt 0 = .transient) :
    lookupParent1 s =
      .raised (.clockAcquisitionFailed .transient .parent1) .chainBuild s.popLookup := by
  simp [lookupParent1, h]

theorem lookupParent1_permanent {s : State} (h : s.env.lookupAt 0 = .permanent) :
    lookupParent1 s =
      .raised (.clockAcquisitionFailed .permanent .parent1) .chainBuild s.popLookup := by
  simp [lookupParent1, h]

theorem registerStage_ok {n : Node} {s : State} (h : s.env.failAt 0 = false) :
    registerStage n s =
      .done { s.popFail with stages := withStage s.stages n } := by
  simp [registerStage, h]

theorem registerStage_fail {n : Node} {s : State} (h : s.env.failAt 0 = true) :
    registerStage n s = .raised (.clockRegistrationFailed n) .chainBuild s.popFail := by
  simp [registerStage, h]

/-- A draw of one kind leaves the draws of another. -/
@[simp] theorem popLookup_failAt (s : State) (k : Nat) : s.popLookup.env.failAt k = s.env.failAt k :=
  rfl

@[simp] theorem popFail_rateNow (s : State) : s.popFail.env.rateNow = s.env.rateNow := rfl

/-! ## CLK.SET_RATE, CLK.ENABLE, CLK.DISABLE (R98, R101, R102) -/

theorem setRate_fail {s : State} {n hz : Nat} (hc : s.chain = .built n) (hz0 : 0 < hz)
    (hf : s.env.failAt 0 = true) :
    setRate .rgmiiTxEn hz s = .raised .rateSetFailed .clkSetRate s.popFail := by
  have : hz ≠ 0 := by omega
  simp [setRate, withChain_built hc, this, hf]

theorem setRate_ok {s : State} {n hz : Nat} (hc : s.chain = .built n) (hz0 : 0 < hz)
    (hf : s.env.failAt 0 = false) :
    setRate .rgmiiTxEn hz s = .done (s.popFail.applyRate hz) := by
  have : hz ≠ 0 := by omega
  simp [setRate, withChain_built hc, this, hf]

/-- Every way CLK.SET_RATE can be done or raise. -/
theorem setRate_cases {node : Node} {hz : Nat} {s : State} :
    (∃ e, setRate node hz s = .refused e) ∨
      (setRate node hz s = .raised .rateSetFailed .clkSetRate s.popFail ∧ s.env.failAt 0 = true) ∨
      (setRate node hz s = .done (s.popFail.applyRate hz) ∧ s.env.failAt 0 = false) := by
  unfold setRate
  split
  · exact .inl ⟨_, rfl⟩
  · cases hc : s.chain with
    | none => exact .inl ⟨_, withChain_none hc _⟩
    | built n =>
      rw [withChain_built hc]
      split
      · exact .inl ⟨_, rfl⟩
      · split
        · exact .inr (.inl ⟨rfl, ‹_›⟩)
        · rename_i hf
          exact .inr (.inr ⟨rfl, by simpa using hf⟩)

theorem enableChain_fail {s : State} {n : Nat} (hc : s.chain = .built n)
    (hf : s.env.failAt 0 = true) :
    enableChain .rgmiiTxEn s = .raised (.clockEnableFailed .rgmiiTx) .clkEnable s.popFail := by
  simp [enableChain, withChain_built hc, hf]

theorem enableChain_first {s : State} (hc : s.chain = .built 0) (hf : s.env.failAt 0 = false) :
    enableChain .rgmiiTxEn s = .done { s.popFail.openGate with chain := .built 1 } := by
  simp [enableChain, withChain_built hc, hf]

theorem enableChain_again {s : State} {n : Nat} (hc : s.chain = .built (n + 1))
    (hf : s.env.failAt 0 = false) :
    enableChain .rgmiiTxEn s = .done { s.popFail with chain := .built (n + 2) } := by
  simp [enableChain, withChain_built hc, hf]

/-- `n + 1` disables come to the count, then one closing of the gate: the first `n` write nothing
(R102, R104). -/
theorem disableAll_succ (n : Nat) (s : State) :
    State.disableAll (n + 1) s = s.disableTo 0 := by
  induction n generalizing s with
  | zero => rfl
  | succ n ih =>
    show State.disableAll (n + 1) (s.disableTo (n + 1)) = _
    rw [ih]
    simp [State.disableTo]

/-- With no enable outstanding nothing is gated off (R104). -/
@[simp] theorem gateOff_zero (s : State) : s.gateOff 0 = s := rfl

/-- However many enables are outstanding, gating off is one closing of the gate, then a gap (R104). -/
theorem gateOff_succ (n : Nat) (s : State) : s.gateOff (n + 1) = (s.disableTo 0).gap 0 := by
  show (State.disableAll (n + 1) s).gap 0 = _
  rw [disableAll_succ]

end Sys2Proof.Machine
end

