-- ==== Sys2Proof/Laws/Dispatch.lean ====
section
/-! SUPPORT. The sub-operation behind each operation, so that a claim about every operation is one
case split over short terms. -/

namespace Sys2Proof.Machine

/-- What a field row does (log 10). -/
def fieldOp (family : Option Family) (mask mtch : Word) (s : State) : Res :=
  if rowOfInstance s family then .done (s.mwEth0 mask mtch) else .refused .fieldOfOtherFamily

/-- PHYMODE.APPLY with its operands from the configuration (R105). -/
def phyModeOp (s : State) : Res :=
  match s.cfg with
  | some c => applyPhyMode c.mode c.family s
  | none => .refused .noConfiguration

/-- TIMING.APPLY with its operands from the configuration (R109). -/
def timingOp (s : State) : Res :=
  match s.cfg with
  | some c => applyTiming c.mode c.txDelay c.rxDelay s
  | none => .refused .noConfiguration

/-- The operation behind an instruction, before it completes or its raise is taken. ORCH.RELEASE is
not of this form (its `pos` is 0): the lemmas below set it apart. -/
def opOf (i : Instr) (s : State) : Res :=
  match i with
  | .rdEth0 => .done s.readEth0
  | .wrEth0 v => .done (s.writeEth0 v)
  | .rdEth1 => .done s.readEth1
  | .wrEth1 _ => .refused .wrEth1OutOfScope
  | .rgmiiModeRgmii => fieldOp (some .legacy) rgmiiModeM 0x00000001 s
  | .rgmiiModeRmii => fieldOp (some .legacy) rgmiiModeM 0x00000000 s
  | .extPhyModeRgmii => fieldOp (some .extMode) extPhyModeM 0x00000001 s
  | .extPhyModeRmii => fieldOp (some .extMode) extPhyModeM 0x00000004 s
  | .clkM250Sel0 => fieldOp none selM 0x00000000 s
  | .clkM250Sel1 => fieldOp none selM 0x00000010 s
  | .txdly0 => fieldOp none txdlyM 0x00000000 s
  | .txdly1 => fieldOp none txdlyM 0x00000020 s
  | .txdly2 => fieldOp none txdlyM 0x00000040 s
  | .txdly3 => fieldOp none txdlyM 0x00000060 s
  | .clkM250Div2 => fieldOp none divM 0x00000100 s
  | .clkM250Div3 => fieldOp none divM 0x00000180 s
  | .clkM250Div4 => fieldOp none divM 0x00000200 s
  | .clkM250Div5 => fieldOp none divM 0x00000280 s
  | .clkM250Div6 => fieldOp none divM 0x00000300 s
  | .clkM250Div7 => fieldOp none divM 0x00000380 s
  | .clkM250DivLow0 => fieldOp none divM 0x00000000 s
  | .clkM250DivLow1 => fieldOp none divM 0x00000080 s
  | .rgmiiTxClkEn1 => fieldOp none gateM 0x00000400 s
  | .rgmiiTxClkEn0 => fieldOp none gateM 0x00000000 s
  | .invertedRmiiClk1 => fieldOp none invM 0x00000800 s
  | .invertedRmiiClk0 => fieldOp none invM 0x00000000 s
  | .txAndPhyRefClk1 => fieldOp none refM 0x00001000 s
  | .txAndPhyRefClk0 => fieldOp none refM 0x00000000 s
  | .adjEnable1 => fieldOp none adjEnM 0x00002000 s
  | .adjEnable0 => fieldOp none adjEnM 0x00000000 s
  | .adjSetup1 => fieldOp none adjSetupM 0x00004000 s
  | .adjSetup0 => fieldOp none adjSetupM 0x00000000 s
  | .rxdly2ns => fieldOp none rxdlyM 0x00006000 s
  | .rxdly0ns => fieldOp none rxdlyM 0x00000000 s
  | .adjDelay => fieldOp none adjDelayM 0x00000000 s
  | .adjSkew => fieldOp none adjSkewM 0x00000000 s
  | .mw off mask value => maskedWrite off mask value s
  | .chainBuild => buildChain s
  | .clkGetRate node => getRate node s
  | .clkRoundRate node hz => roundRate node hz s
  | .clkSetParent node idx => setParent node idx s
  | .clkSetDiv node d => setDiv node d s
  | .clkSetRate node hz => setRate node hz s
  | .clkEnable node => enableChain node s
  | .clkDisable node => disableChain node s
  | .chainRelease => releaseChain s
  | .phymodeApply => phyModeOp s
  | .adjClkEnable => enableAdj s
  | .timingApply => timingOp s
  | .orchInit => orchInit s
  | .orchRelease => .refused .notFinished

/-- Every operation but WR.ETH1 and ORCH.RELEASE is open to HOST only, or is a rate operation. -/
theorem exec_eq (i : Instr) (s : State) (h1 : ∀ v, i ≠ .wrEth1 v) (h2 : i ≠ .orchRelease) :
    exec i s = hostOnly s (opOf i) ∨
      ∃ node, (i = .clkGetRate node ∨ (∃ hz, i = .clkRoundRate node hz) ∨
        ∃ hz, i = .clkSetRate node hz) ∧ exec i s = rateRequest s node (opOf i) := by
  cases i
  case wrEth1 v => exact absurd rfl (h1 v)
  case orchRelease => exact absurd rfl h2
  case clkGetRate node => exact .inr ⟨node, .inl rfl, rfl⟩
  case clkRoundRate node hz => exact .inr ⟨node, .inr (.inl ⟨hz, rfl⟩), rfl⟩
  case clkSetRate node hz => exact .inr ⟨node, .inr (.inr ⟨hz, rfl⟩), rfl⟩
  all_goals exact .inl rfl

/-- A next state comes from the operation, issued by HOST, or by DATAPATH where it may. -/
theorem exec_next {i : Instr} {s t : State} (h : exec i s = .next t) (hi : i ≠ .orchRelease) :
    (opOf i s).settle = .next t ∧
      (s.agent = .datapath → s.result = .programmed ∧
        (i = .clkGetRate .rgmiiTxEn ∨ (∃ hz, i = .clkRoundRate .rgmiiTxEn hz) ∨
          ∃ hz, i = .clkSetRate .rgmiiTxEn hz)) := by
  have hw : ∀ v, i ≠ .wrEth1 v := by
    rintro v rfl
    cases h
  rcases exec_eq i s hw hi with he | ⟨node, hn, he⟩
  · obtain ⟨ha, ho⟩ := hostOnly_eq_next.1 (he ▸ h)
    exact ⟨ho, by simp [ha]⟩
  · rw [he] at h
    refine ⟨rateRequest_settle h, fun ha => ?_⟩
    simp only [rateRequest, ha] at h
    split at h
    · obtain ⟨rfl, hp⟩ := ‹_ ∧ _›
      exact ⟨hp, hn⟩
    · cases h

/-- ORCH.RELEASE has a next state only for HOST, after a finished run (R132). -/
theorem execOrchRelease_next {s t : State} (h : exec .orchRelease s = .next t) :
    s.agent = .host ∧ s.result.finished = true ∧ t = s.releaseResources.backToIdle := by
  simp only [exec, execOrchRelease] at h
  split at h
  · split at h
    · cases h
      exact ⟨‹_›, ‹_›, rfl⟩
    · cases h
  · cases h

end Sys2Proof.Machine
end

