-- ==== Sys2Proof/Laws/Moves.lean ====
section
/-! SUPPORT. The elementary moves an operation is made of, and the lemma that a relation kept by every
move is kept by every operation. -/

namespace Sys2Proof.Machine

/-- The masks of the masked writes that no mode field takes part in. -/
def controlMasks : List Word :=
  [selM, txdlyM, divM, gateM, invM, refM, adjEnM, adjSetupM, rxdlyM, adjDelayM, adjSkewM,
    DelayMask.clearsCalibration.word, DelayMask.leavesCalibration.word]

/-- The mask of a family's mode field (R106, R107). -/
def modeMask : Family → Word
  | .legacy => rgmiiModeM
  | .extMode => extPhyModeM

theorem modePair_mask {f : Family} {mode : PhyMode} {m v : Word} (h : modePair f mode = some (m, v)) :
    m = modeMask f := by
  cases f <;> cases mode <;> simp_all [modePair, modeLegacy, modeExt, modeMask]

/-- The configuration acquired is of the instance's family, and its mode is that of a mode string
(R119). -/
theorem acquire_family {f : Family} {d : Description} {c : Cfg} (h : acquire f d = some c) :
    c.family = f := by
  unfold acquire at h
  split at h <;> cases h
  rfl

theorem acquire_mode {f : Family} {d : Description} {c : Cfg} (h : acquire f d = some c) :
    c.mode = phyModeOf d.mode := by
  unfold acquire at h
  split at h <;> cases h
  rfl

/-- A relation that every elementary move keeps; `F` are the families whose mode field may be
written. -/
structure Moves (R : State → State → Prop) (F : Family → Prop) : Prop extends Steady R where
  popFail : ∀ u, R u u.popFail
  popLookup : ∀ u, R u u.popLookup
  popRate : ∀ u, R u u.popRate
  popAdj : ∀ u, R u u.popAdj
  readEth0 : ∀ u, R u u.readEth0
  readEth1 : ∀ u, R u u.readEth1
  setRate : ∀ u f, R u (u.setRate f)
  gap : ∀ u, R u (u.gap 0)
  control : ∀ u held m v, m ∈ controlMasks → R u (u.mwHeld held m v)
  modeField : ∀ u f v, F f → R u (u.mwEth0 (modeMask f) v)
  par0 : ∀ u, R u { u with par0Held := true }
  par1 : ∀ u, R u { u with par1Held := true }
  stage : ∀ u n, R u { u with stages := withStage u.stages n }
  chainBuilt : ∀ u, (∀ n, n ∈ u.stages) → R u { u with chain := .built 0 }
  openGate : ∀ u, u.chain = .built 0 → R u { u.openGate with chain := .built 1 }
  count : ∀ u n, u.chain = .built (n + 1) → R u { u with chain := .built (n + 2) }
  disable : ∀ u n, u.chain = .built (n + 1) → R u (u.disableTo n)
  unregister : ∀ u, R u { u with chain := .none, stages := [] }
  adjClock : ∀ u b, R u { u with adjEnabled := b }
  config : ∀ u c a, u.cfg = some c → R u { u with cfg := some { c with adjClk := a } }
  adjHandle : ∀ u, R u { u with adjHeld := true }

/-- The relation lets a rate request change the parents' rates (R99). -/
def KeepsRates (R : State → State → Prop) : Prop :=
  ∀ (u : State) (a b : Option Rat), R u { u with p0 := newRate u.p0 a, p1 := newRate u.p1 b }

/-- The relation lets ORCH.INIT write its outcome and the configuration acquired (R122). -/
def KeepsRun (R : State → State → Prop) : Prop :=
  (∀ (u : State) (c : Cfg), u.result = .idle → acquire u.params.family u.desc = some c →
      R u { u with result := .running, cfg := some c }) ∧
    ∀ u : State, R u { u with result := .programmed }

/-- The operations that make a rate request (R98, R115). -/
def MakesRateRequest (i : Instr) : Prop :=
  (∃ node hz, i = .clkSetRate node hz) ∨ i = .timingApply ∨ i = .orchInit

section
variable {R : State → State → Prop} {F : Family → Prop} (hM : Moves R F)
include hM

theorem Moves.chainBuild (s : State) : (Machine.buildChain s).All (R s) :=
  hM.buildChain hM.popLookup hM.popFail hM.par0 hM.par1 hM.stage hM.chainBuilt s

theorem Moves.rateRequest (hr : KeepsRates R) (node : Node) (hz : Nat) (s : State) :
    (Machine.setRate node hz s).All (R s) :=
  hM.toSteady.setRate hM.popFail hM.gap hM.popRate hr
    (fun u _ => hM.control u selM selM _ (by simp [controlMasks]))
    (fun u _ => hM.control u divM divM _ (by simp [controlMasks])) node hz s

theorem Moves.enable (node : Node) (s : State) : (Machine.enableChain node s).All (R s) :=
  hM.enableChain hM.popFail hM.openGate hM.count node s

theorem Moves.timing (hr : KeepsRates R) (mode : PhyMode) (tx rx : Word) (s : State) :
    (Machine.applyTiming mode tx rx s).All (R s) := by
  refine hM.applyTiming (fun u dc rxf mode => ?_) mode tx rx s
  refine hM.timingSteps hM.popFail hM.gap hM.adjClock (fun u dc => ?_)
    (fun u v => hM.control u 0 invM v (by simp [controlMasks]))
    (fun u => hM.control u 0 refM _ (by simp [controlMasks]))
    (fun u => hM.rateRequest hr _ _ u) (fun u => hM.enable _ u) mode dc rxf u
  unfold State.writeDelay
  refine hM.control u 0 _ dc ?_
  cases u.params.delayMask <;> simp [controlMasks]

theorem Moves.phyMode (mode : PhyMode) (f : Family) (hf : F f) (s : State) :
    (Machine.applyPhyMode mode f s).All (R s) := by
  refine hM.applyPhyMode mode f s (fun m v h => ?_)
  rw [modePair_mask h]
  exact hM.modeField s f v hf

theorem Moves.field (f : Option Family) (m v : Word) (s : State)
    (h : m ∈ controlMasks ∨ ∃ fam, f = some fam ∧ m = modeMask fam ∧ (s.params.family = fam → F fam)) :
    (fieldOp f m v s).All (R s) := by
  unfold fieldOp
  split
  · rename_i hrow
    rcases h with h | ⟨fam, rfl, rfl, hF⟩
    · exact hM.control s 0 m v h
    · exact hM.modeField s fam v (hF (by simpa [rowOfInstance] using hrow))
  · trivial

/-- Every operation keeps the relation: a raw write, a rate request and ORCH.INIT under what each
needs besides the moves. -/
theorem Moves.opOf (i : Instr) (s : State) (hrate : MakesRateRequest i → KeepsRates R)
    (hrun : i = .orchInit → KeepsRun R)
    (hraw : ((∃ v, i = .wrEth0 v) → ∀ v, R s (s.writeEth0 v)) ∧
      ((∃ off m v, i = .mw off m v) → ∀ m v, R s (s.mwEth0 m v)))
    (hpar : F s.params.family) (hcfg : ∀ c, s.cfg = some c → F c.family) :
    (opOf i s).All (R s) := by
  cases i
  case rdEth0 => exact hM.readEth0 s
  case wrEth0 v => exact hraw.1 ⟨v, rfl⟩ v
  case rdEth1 => exact hM.readEth1 s
  case wrEth1 => trivial
  case mw off m v =>
    show (maskedWrite off m v s).All (R s)
    unfold maskedWrite
    split
    · exact hraw.2 ⟨off, m, v, rfl⟩ m v
    · split <;> trivial
  case chainBuild => exact hM.chainBuild s
  case clkGetRate n =>
    exact withChain_all (fun _ _ => hM.trans _ _ _ (hM.readEth0 s) (hM.setRate _ _))
  case clkRoundRate n hz =>
    refine withChain_all (fun _ _ => ?_)
    dsimp only
    split
    · trivial
    · exact hM.trans _ _ _ (hM.popRate s) (hM.setRate _ _)
  case clkSetParent n i =>
    show (Machine.setParent n i s).All (R s)
    unfold Machine.setParent
    split
    · trivial
    · refine withChain_all (fun _ _ => ?_)
      split
      · exact hM.control _ 0 _ _ (by simp [controlMasks])
      · trivial
  case clkSetDiv n d =>
    show (Machine.setDiv n d s).All (R s)
    unfold Machine.setDiv
    split
    · trivial
    · refine withChain_all (fun _ _ => ?_)
      split
      · exact hM.control _ 0 _ _ (by simp [controlMasks])
      · trivial
  case clkSetRate n hz => exact hM.rateRequest (hrate (.inl ⟨n, hz, rfl⟩)) n hz s
  case clkEnable n => exact hM.enable n s
  case clkDisable n =>
    show (Machine.disableChain n s).All (R s)
    unfold Machine.disableChain
    split
    · trivial
    · refine withChain_all (fun k hk => ?_)
      split
      · trivial
      · exact hM.disable s _ hk
  case chainRelease =>
    exact withChain_all (fun n hn => hM.dropChain hM.gap hM.disable hM.unregister n s hn)
  case phymodeApply =>
    show (phyModeOp s).All (R s)
    unfold phyModeOp
    split
    · exact hM.phyMode _ _ (hcfg _ ‹_›) s
    · trivial
  case adjClkEnable => exact hM.startAdj hM.popFail hM.adjClock s.adjEnabled s
  case timingApply =>
    show (timingOp s).All (R s)
    unfold timingOp
    split
    · exact hM.timing (hrate (.inr (.inl rfl))) _ _ _ s
    · trivial
  case orchInit =>
    show (Machine.orchInit s).All (R s)
    unfold Machine.orchInit
    split
    · trivial
    · split
      · trivial
      · rename_i hidle _ c hc
        have hidle : s.result = .idle := by simpa using hidle
        refine hM.andThen (Res.All.mono ?_ (fun v hv => hM.trans _ _ _ ((hrun rfl).1 s c hidle hc) hv))
          (fun u _ => (hrun rfl).2 u)
        exact hM.configure hM.popAdj hM.adjHandle hM.chainBuild c (fun u a h => hM.config u c a h)
          (fun u => hM.phyMode _ _ (acquire_family hc ▸ hpar) u)
          (fun u => hM.timing (hrate (.inr (.inr rfl))) _ _ _ u) _ rfl
  case orchRelease => trivial
  case rgmiiModeRgmii | rgmiiModeRmii =>
    exact hM.field _ _ _ s (.inr ⟨.legacy, rfl, rfl, fun h => h ▸ hpar⟩)
  case extPhyModeRgmii | extPhyModeRmii =>
    exact hM.field _ _ _ s (.inr ⟨.extMode, rfl, rfl, fun h => h ▸ hpar⟩)
  all_goals exact hM.field _ _ _ s (.inl (by simp [controlMasks]))

end

end Sys2Proof.Machine
end

