-- ==== Sys2Proof/Laws/PerInstr.lean ====
section
/-! SUPPORT. The per-instruction family `MatchUnderMask`: the operation word of an instruction that
names a field encoding sets no bit outside the field (30_encoding.md R65, R76). -/

namespace Sys2Proof.Laws.MatchUnderMask

/-- The match of a `prg_eth0` word lies under its mask. -/
def Statement (i : Instr) : Prop := ∀ m v : Word, encode i = .prgEth0 m v → v &&& ~~~m = 0

/-- A field encoding's word. -/
theorem of_row {i : Instr} {m v : Word} (h : encode i = .prgEth0 m v) (hv : v &&& ~~~m = 0) :
    Statement i := by
  intro m' v' h'
  rw [h] at h'
  cases h'
  exact hv

/-- A word of another format. -/
theorem of_other {i : Instr} (h : ∀ m v, encode i ≠ .prgEth0 m v) : Statement i :=
  fun m v h' => absurd h' (h m v)

theorem rdEth0 : Statement .rdEth0 := of_other (fun _ _ h => by cases h)
theorem wrEth0 (v : Word) : Statement (.wrEth0 v) := of_other (fun _ _ h => by cases h)
theorem rdEth1 : Statement .rdEth1 := of_other (fun _ _ h => by cases h)
theorem wrEth1 (v : Word) : Statement (.wrEth1 v) := of_other (fun _ _ h => by cases h)
theorem rgmiiModeRgmii : Statement .rgmiiModeRgmii := of_row rfl rfl
theorem rgmiiModeRmii : Statement .rgmiiModeRmii := of_row rfl rfl
theorem extPhyModeRgmii : Statement .extPhyModeRgmii := of_row rfl rfl
theorem extPhyModeRmii : Statement .extPhyModeRmii := of_row rfl rfl
theorem clkM250Sel0 : Statement .clkM250Sel0 := of_row rfl rfl
theorem clkM250Sel1 : Statement .clkM250Sel1 := of_row rfl rfl
theorem txdly0 : Statement .txdly0 := of_row rfl rfl
theorem txdly1 : Statement .txdly1 := of_row rfl rfl
theorem txdly2 : Statement .txdly2 := of_row rfl rfl
theorem txdly3 : Statement .txdly3 := of_row rfl rfl
theorem clkM250Div2 : Statement .clkM250Div2 := of_row rfl rfl
theorem clkM250Div3 : Statement .clkM250Div3 := of_row rfl rfl
theorem clkM250Div4 : Statement .clkM250Div4 := of_row rfl rfl
theorem clkM250Div5 : Statement .clkM250Div5 := of_row rfl rfl
theorem clkM250Div6 : Statement .clkM250Div6 := of_row rfl rfl
theorem clkM250Div7 : Statement .clkM250Div7 := of_row rfl rfl
theorem clkM250DivLow0 : Statement .clkM250DivLow0 := of_row rfl rfl
theorem clkM250DivLow1 : Statement .clkM250DivLow1 := of_row rfl rfl
theorem rgmiiTxClkEn1 : Statement .rgmiiTxClkEn1 := of_row rfl rfl
theorem rgmiiTxClkEn0 : Statement .rgmiiTxClkEn0 := of_row rfl rfl
theorem invertedRmiiClk1 : Statement .invertedRmiiClk1 := of_row rfl rfl
theorem invertedRmiiClk0 : Statement .invertedRmiiClk0 := of_row rfl rfl
theorem txAndPhyRefClk1 : Statement .txAndPhyRefClk1 := of_row rfl rfl
theorem txAndPhyRefClk0 : Statement .txAndPhyRefClk0 := of_row rfl rfl
theorem adjEnable1 : Statement .adjEnable1 := of_row rfl rfl
theorem adjEnable0 : Statement .adjEnable0 := of_row rfl rfl
theorem adjSetup1 : Statement .adjSetup1 := of_row rfl rfl
theorem adjSetup0 : Statement .adjSetup0 := of_row rfl rfl
theorem rxdly2ns : Statement .rxdly2ns := of_row rfl rfl
theorem rxdly0ns : Statement .rxdly0ns := of_row rfl rfl
theorem adjDelay : Statement .adjDelay := of_row rfl rfl
theorem adjSkew : Statement .adjSkew := of_row rfl rfl
theorem mw (off : Nat) (mask : Word) (value : Word) : Statement (.mw off mask value) := of_other (fun _ _ h => by cases h)
theorem chainBuild : Statement .chainBuild := of_other (fun _ _ h => by cases h)
theorem clkGetRate (node : Node) : Statement (.clkGetRate node) := of_other (fun _ _ h => by cases h)
theorem clkRoundRate (node : Node) (hz : Nat) : Statement (.clkRoundRate node hz) := of_other (fun _ _ h => by cases h)
theorem clkSetParent (node : Node) (idx : Nat) : Statement (.clkSetParent node idx) := of_other (fun _ _ h => by cases h)
theorem clkSetDiv (node : Node) (d : Nat) : Statement (.clkSetDiv node d) := of_other (fun _ _ h => by cases h)
theorem clkSetRate (node : Node) (hz : Nat) : Statement (.clkSetRate node hz) := of_other (fun _ _ h => by cases h)
theorem clkEnable (node : Node) : Statement (.clkEnable node) := of_other (fun _ _ h => by cases h)
theorem clkDisable (node : Node) : Statement (.clkDisable node) := of_other (fun _ _ h => by cases h)
theorem chainRelease : Statement .chainRelease := of_other (fun _ _ h => by cases h)
theorem phymodeApply : Statement .phymodeApply := of_other (fun _ _ h => by cases h)
theorem adjClkEnable : Statement .adjClkEnable := of_other (fun _ _ h => by cases h)
theorem timingApply : Statement .timingApply := of_other (fun _ _ h => by cases h)
theorem orchInit : Statement .orchInit := of_other (fun _ _ h => by cases h)
theorem orchRelease : Statement .orchRelease := of_other (fun _ _ h => by cases h)

end Sys2Proof.Laws.MatchUnderMask
end

