-- ==== Sys2Proof/Laws/Sequence.lean ====
section
/-! SUPPORT. What the procedures of the configuration sequence can come to, once each: the writes of a
rate request with nobody else on the bus, CHAIN.BUILD, ADJ.ENABLE, and the mode pair. -/

namespace Sys2Proof.Machine

/-! ## The masked write -/

/-- Alone, a masked write touches PRG_ETH0, the temporaries, the log and the count of gaps only. -/
theorem mwHeld_frame_alone {s : State} (h : ExclusiveInit s) (held m v : Word) :
    s.mwHeld held m v = { s with
      reg0 := (s.mwHeld held m v).reg0
      t := (s.mwHeld held m v).t
      dpT := (s.mwHeld held m v).dpT
      txns := (s.mwHeld held m v).txns
      env := { s.env with nGap := (s.mwHeld held m v).env.nGap } } := by
  rw [mwHeld_exclusive h]

/-- Alone, it issues two transactions, whatever the mask (R85). -/
theorem mwHeld_txns_length {s : State} (h : ExclusiveInit s) (held m v : Word) :
    (s.mwHeld held m v).txns.length = s.txns.length + 2 := by
  simp [mwHeld_exclusive h]

theorem mwHeld_dpT_host {s : State} (h : ExclusiveInit s) (ha : s.agent = .host) (held m v : Word) :
    (s.mwHeld held m v).dpT = s.dpT := by
  simp [mwHeld_exclusive h, ha]

theorem mwHeld_t_datapath {s : State} (h : ExclusiveInit s) (ha : s.agent = .datapath)
    (held m v : Word) : (s.mwHeld held m v).t = s.t := by
  simp [mwHeld_exclusive h, ha]

theorem mwHeld_reg0_alone {s : State} (h : ExclusiveInit s) (held m v : Word) :
    (s.mwHeld held m v).reg0 = merge s.reg0 m v := by
  rw [mwHeld_exclusive h]

/-! ## The writes of a rate request (R98) -/

/-- What some of a rate request's writes, at most `k` of them, leave: only the rate bits of
PRG_ETH0, the temporaries, the log and the count of gaps change. -/
structure RatePart (s t : State) (k : Nat) : Prop where
  keep : t.reg0 &&& ~~~rateBits = s.reg0 &&& ~~~rateBits
  txns : ∃ j, j ≤ k ∧ t.txns.length = s.txns.length + 2 * j
  frame : t = { s with
    reg0 := t.reg0
    t := t.t
    dpT := t.dpT
    txns := t.txns
    env := { s.env with nGap := t.env.nGap } }
  host : s.agent = .host → t.dpT = s.dpT
  datapath : s.agent = .datapath → t.t = s.t
  alone : ExclusiveInit t

theorem RatePart.comp {s u t : State} {j k : Nat} (h : RatePart s u j) (h' : RatePart u t k) :
    RatePart s t (j + k) := by
  have ha : u.agent = s.agent := by rw [h.frame]
  refine ⟨h'.keep.trans h.keep, ?_, ?_, fun hs => ?_, fun hs => ?_, h'.alone⟩
  · obtain ⟨a, _, _⟩ := h.txns
    obtain ⟨b, _, _⟩ := h'.txns
    exact ⟨a + b, by omega, by omega⟩
  · rw [h'.frame, h.frame]
  · exact (h'.host (ha.trans hs)).trans (h.host hs)
  · exact (h'.datapath (ha.trans hs)).trans (h.datapath hs)

theorem RatePart.gap {s : State} (h : ExclusiveInit s) : RatePart s (s.gap 0) 1 := by
  rw [gap_alone (h.1 0)]
  exact ⟨rfl, ⟨0, by omega, rfl⟩, rfl, fun _ => rfl, fun _ => rfl,
    h.mono rfl (Nat.le_succ _) rfl⟩

theorem RatePart.write {s : State} (h : ExclusiveInit s) (held : Word) {m : Word} (v : Word)
    (hm : m &&& ~~~rateBits = 0) : RatePart s (s.mwHeld held m v) 1 where
  keep := by rw [mwHeld_reg0_alone h]; exact merge_keeps hm
  txns := ⟨1, by omega, by rw [mwHeld_txns_length h]⟩
  frame := mwHeld_frame_alone h _ _ _
  host ha := mwHeld_dpT_host h ha _ _ _
  datapath ha := mwHeld_t_datapath h ha _ _ _
  alone := exclusive_mwHeld h _ _ _

/-- The select write leaves the select asked for, and the divider as it was. -/
theorem rateSel_alone {s : State} (h : ExclusiveInit s) (o : RateOutcome) (skip : Bool) :
    RatePart s (s.rateSel o skip) 1 ∧ selBit (s.rateSel o skip).reg0 = o.sel ∧
      divRaw (s.rateSel o skip).reg0 = divRaw s.reg0 := by
  unfold State.rateSel
  split
  · rename_i hs
    exact ⟨.gap h, by simpa [gap_alone (h.1 0)] using hs.2, by rw [gap_alone (h.1 0)]⟩
  · refine ⟨.write h _ _ rfl, ?_, ?_⟩
    · rw [mwHeld_reg0_alone h]; exact selBit_merge _ _
    · rw [mwHeld_reg0_alone h]; exact divRaw_merge_sel _ _

/-- The divisor write leaves the divisor asked for, and the select as it was. -/
theorem rateDiv_alone {s : State} (h : ExclusiveInit s) (o : RateOutcome) (hd : o.div < 8)
    (skip : Bool) :
    RatePart s (s.rateDiv o skip) 1 ∧ selBit (s.rateDiv o skip).reg0 = selBit s.reg0 ∧
      divRaw (s.rateDiv o skip).reg0 = o.div := by
  unfold State.rateDiv
  split
  · rename_i hs
    exact ⟨.gap h, by rw [gap_alone (h.1 0)], by simpa [gap_alone (h.1 0)] using hs.2⟩
  · refine ⟨.write h _ _ rfl, ?_, ?_⟩
    · rw [mwHeld_reg0_alone h]; exact selBit_merge_div _ _
    · rw [mwHeld_reg0_alone h]; exact divRaw_merge _ hd

/-- In either order, the writes of a rate request end with the select and the divisor of the outcome
and touch nothing else of PRG_ETH0 (R98). -/
theorem rateWrites_alone {s : State} (h : ExclusiveInit s) (o : RateOutcome) (hd : o.div < 8)
    (c : RateChoice) :
    RatePart s (s.rateWrites o c) 2 ∧ selBit (s.rateWrites o c).reg0 = o.sel ∧
      divRaw (s.rateWrites o c).reg0 = o.div := by
  unfold State.rateWrites
  split
  · have a := rateDiv_alone h o hd c.skipDiv
    have b := rateSel_alone a.1.alone o c.skipSel
    exact ⟨a.1.comp b.1, b.2.1, b.2.2.trans a.2.2⟩
  · have a := rateSel_alone h o c.skipSel
    have b := rateDiv_alone a.1.alone o hd c.skipDiv
    exact ⟨a.1.comp b.1, b.2.1.trans a.2.1, b.2.2⟩

/-! ## CHAIN.BUILD (R87) -/

/-- What CHAIN.BUILD may change: the handles, the stages, the chain and the draws. -/
def BuildFrame (s t : State) : Prop :=
  t = { s with
    par0Held := t.par0Held
    par1Held := t.par1Held
    stages := t.stages
    chain := t.chain
    env := { s.env with nLookup := t.env.nLookup, nFail := t.env.nFail } }

theorem buildFrame_steady : Steady BuildFrame := by
  refine ⟨fun _ => rfl, ?_⟩
  intro s t u h k
  unfold BuildFrame at *
  rw [h] at k
  simpa using k

theorem buildChain_frame (s : State) : (buildChain s).All (BuildFrame s) :=
  buildFrame_steady.buildChain (fun _ => rfl) (fun _ => rfl) (fun _ => rfl) (fun _ => rfl)
    (fun _ _ => rfl) (fun _ _ => rfl) s

/-- CHAIN.BUILD that is done leaves the chain built and not enabled. -/
theorem buildChain_done {s t : State} (h : buildChain s = .done t) :
    BuildFrame s t ∧ t.chain = .built 0 := by
  refine ⟨by simpa [h] using buildChain_frame s, ?_⟩
  unfold buildChain at h
  obtain ⟨u, _, h⟩ := andThen_eq_done.1 h
  cases h
  rfl

/-- Where both lookups succeed and no registration fails, CHAIN.BUILD is done. -/
theorem buildChain_ok {s : State} (h0 : s.env.lookupAt 0 = .ok) (h1 : s.env.lookupAt 1 = .ok)
    (hn : NoFailure s 4) : ∃ t, buildChain s = .done t ∧ t.env.nFail = s.env.nFail + 4 := by
  have f1 : s.popFail.env.failAt 0 = false := by rw [popFail_failAt]; exact hn 1 (by omega)
  have f2 : s.popFail.popFail.env.failAt 0 = false := by
    rw [popFail_failAt, popFail_failAt]; exact hn 2 (by omega)
  have f3 : s.popFail.popFail.popFail.env.failAt 0 = false := by
    rw [popFail_failAt, popFail_failAt, popFail_failAt]; exact hn 3 (by omega)
  unfold buildChain
  rw [lookupParent0_ok h0]
  simp only [done_andThen]
  rw [lookupParent1_ok (by exact (popLookup_lookupAt s 0).trans h1)]
  simp only [done_andThen]
  rw [registerStage_ok (by exact hn 0 (by omega))]
  simp only [done_andThen]
  rw [registerStage_ok (by exact f1)]
  simp only [done_andThen]
  rw [registerStage_ok (by exact f2)]
  simp only [done_andThen]
  rw [registerStage_ok (by exact f3)]
  exact ⟨_, rfl, rfl⟩

/-- The stages of CHAIN.BUILD raise its two kinds of error and no other, and it refuses nothing. -/
def RaisesBuildError : Res → Prop
  | .done _ => True
  | .raised k g _ => g = .chainBuild ∧
      ((∃ v p, k = .clockAcquisitionFailed v p) ∨ ∃ n, k = .clockRegistrationFailed n)
  | .refused _ => False

theorem RaisesBuildError.andThen {r : Res} {f : State → Res} (h : RaisesBuildError r)
    (hf : ∀ s, RaisesBuildError (f s)) : RaisesBuildError (r.andThen f) := by
  cases r with
  | done s => exact hf s
  | raised k g s => exact h
  | refused e => exact h

theorem buildChain_raises (s : State) : RaisesBuildError (buildChain s) := by
  have h0 : ∀ s, RaisesBuildError (lookupParent0 s) := by
    intro s
    unfold lookupParent0
    split <;> simp [RaisesBuildError]
  have h1 : ∀ s, RaisesBuildError (lookupParent1 s) := by
    intro s
    unfold lookupParent1
    split <;> simp [RaisesBuildError]
  have hr : ∀ n s, RaisesBuildError (registerStage n s) := by
    intro n s
    unfold registerStage
    split <;> simp [RaisesBuildError]
  unfold buildChain
  exact ((((((h0 s).andThen h1).andThen (hr _)).andThen (hr _)).andThen (hr _)).andThen
    (hr _)).andThen (fun _ => trivial)

/-! ## ADJ.ENABLE and the mode pair (R105, R113) -/

/-- Every way the start of the adjustment clock can go. -/
theorem startAdj_cases (left : Bool) (s : State) :
    (s.adjClk = .absent ∧
      startAdj left s = .raised (.missingMandatoryClock .adjustment) .adjEnable s) ∨
    (s.adjClk = .present ∧ s.env.failAt 0 = true ∧
      startAdj left s = .raised (.clockEnableFailed .adjustment) .adjEnable
        { s.popFail with adjEnabled := left }) ∨
    (s.adjClk = .present ∧ s.env.failAt 0 = false ∧
      startAdj left s = .done { s.popFail with adjEnabled := true }) := by
  unfold startAdj
  cases s.adjClk <;> cases s.env.failAt 0 <;> simp

/-- The mode pair exists for the five supported modes and no other (R106, R107, R108). -/
theorem modePair_eq_none {f : Family} {mode : PhyMode} :
    modePair f mode = none ↔ ∃ x, mode = .other x := by
  cases f <;> cases mode <;> simp [modePair, modeLegacy, modeExt]

/-- The delay value exists for the five supported modes and no other (R112). -/
theorem combine_eq_none {txf rxf : Word} {mode : PhyMode} :
    combine txf rxf mode = none ↔ ∃ x, mode = .other x := by
  cases mode <;> simp [combine]

/-- `RxField` is defined for 0 and 2 only (R111). -/
theorem rxField_eq_none {rx : Word} : rxField rx = none ↔ rx ≠ 0 ∧ rx ≠ 2 := by
  unfold rxField
  split
  · simp [*]
  · split
    · simp [*]
    · exact ⟨fun _ => ⟨by assumption, by assumption⟩, fun _ => rfl⟩

end Sys2Proof.Machine
end

