-- ==== Sys2Proof/Laws/Serial.lean ====
section
/-! SUPPORT. What the serialization of R55 gives a rate request: the log of transactions only grows,
DATAPATH waits, through a whole gap, before a field that another rate request holds, and DATAPATH at work
meets nothing but other masters' writes. -/

namespace Sys2Proof.Machine

/-! ## The log of transactions only grows (R80) -/

/-- The transactions of `s`, in order, come first among those of `t`. -/
def LogGrows (s t : State) : Prop := ∃ later, t.txns = s.txns ++ later

theorem LogGrows.refl (s : State) : LogGrows s s := ⟨[], by simp⟩

theorem LogGrows.trans {s t u : State} (h : LogGrows s t) (k : LogGrows t u) : LogGrows s u := by
  obtain ⟨l, hl⟩ := h
  obtain ⟨m, hm⟩ := k
  exact ⟨l ++ m, by simp [hm, hl]⟩

theorem logGrows_of_txns {s t : State} (h : t.txns = s.txns) : LogGrows s t := ⟨[], by simp [h]⟩

theorem logGrows_beginRequest (w : OpWord) (s : State) : (beginRequest w s).All (LogGrows s) := by
  unfold beginRequest
  split
  · exact withChain_all (fun _ _ => ⟨_, rfl⟩)
  · refine withChain_all (fun _ _ => ?_)
    dsimp only
    split
    · trivial
    · exact logGrows_of_txns rfl
  · refine withChain_all (fun _ _ => ?_)
    dsimp only
    split
    · trivial
    · split <;> exact logGrows_of_txns rfl
  · trivial
  · trivial

theorem logGrows_dpRun (s : State) (m : DpMove) (rest : List DpMove) : LogGrows s (s.dpRun m rest) := by
  cases m <;> simp only [State.dpRun]
  case writeSel | writeDiv => exact ⟨_, rfl⟩
  all_goals
    split
    · exact logGrows_of_txns rfl
    · exact ⟨_, rfl⟩

theorem logGrows_dpMove (s : State) : LogGrows s s.dpMove := by
  unfold State.dpMove
  split
  · unfold State.dpBegin
    split
    · rename_i w rest _ _
      have h := logGrows_beginRequest w { s with dpQueue := rest }
      split
      · rename_i u hu
        rw [hu] at h
        exact h
      · rename_i k g u hu
        rw [hu] at h
        exact h
      · exact .refl s
    · exact .refl s
  · exact logGrows_dpRun s _ _

theorem logGrows_others : OtherMoves LogGrows where
  refl := .refl
  trans _ _ _ := .trans
  write _ _ := logGrows_of_txns rfl
  datapath u := logGrows_dpMove { u with agent := .datapath }
  place _ := logGrows_of_txns rfl

theorem logGrows_gap (held : Word) (s : State) : LogGrows s (s.gap held) := logGrows_others.gap held s

theorem logGrows_mwHeld (held m v : Word) (s : State) : LogGrows s (s.mwHeld held m v) :=
  logGrows_others.mwHeld (fun _ => ⟨_, rfl⟩) (fun _ _ => ⟨_, rfl⟩) held m v s

/-! ## Waiting for a field (R55) -/

/-- Where DATAPATH's next move is a transaction on the field held, whatever PRG_ETH0 holds, a whole gap
leaves DATAPATH and the log as they were: only other masters act. -/
theorem gap_waits {held : Word} {s : State} {m : DpMove} {rest : List DpMove}
    (hj : s.dpJob = m :: rest) (hm : m.mask = held) (hs : ∀ u : State, u.dpSkips m = false) :
    (s.gap held).dpJob = s.dpJob ∧ (s.gap held).txns = s.txns ∧ (s.gap held).dpT = s.dpT := by
  have key : ∀ (l : List Intrusion) (u : State),
      u.dpJob = s.dpJob → u.txns = s.txns → u.dpT = s.dpT →
      (l.foldl (State.intrude held) u).dpJob = s.dpJob ∧
        (l.foldl (State.intrude held) u).txns = s.txns ∧
        (l.foldl (State.intrude held) u).dpT = s.dpT := by
    intro l
    induction l with
    | nil => exact fun u a b c => ⟨a, b, c⟩
    | cons x l ih =>
      intro u a b c
      cases x with
      | write v => exact ih _ a b c
      | datapath =>
        have h : u.intrude held .datapath = u := by
          simp [State.intrude, State.dpWaits, a, hj, hm, hs]
        simp only [List.foldl_cons, h]
        exact ih u a b c
  exact key _ _ rfl rfl rfl

/-! ## DATAPATH at work (R54, R55) -/

/-- What DATAPATH's own transactions and other masters' writes can change: no parent's rate, no request
of DATAPATH, and no draw. -/
def DatapathFrame (s t : State) : Prop :=
  t = { s with
    reg0 := t.reg0
    dpT := t.dpT
    txns := t.txns
    env := { s.env with nGap := t.env.nGap } }

theorem DatapathFrame.trans {s t u : State} (h : DatapathFrame s t) (k : DatapathFrame t u) :
    DatapathFrame s u := by
  unfold DatapathFrame at *
  rw [h] at k
  simpa using k

/-- In a gap of DATAPATH's only other masters act. -/
theorem gap_of_datapath {s : State} (ha : s.agent = .datapath) (held : Word) :
    DatapathFrame s (s.gap held) := by
  have key : ∀ (l : List Intrusion) (u : State), DatapathFrame s u →
      DatapathFrame s (l.foldl (State.intrude held) u) := by
    intro l
    induction l with
    | nil => exact fun u h => h
    | cons x l ih =>
      intro u h
      refine ih _ ?_
      have hu : u.agent = .datapath := by
        rw [h]
        exact ha
      cases x with
      | write v => exact h.trans (by simp [State.intrude, DatapathFrame])
      | datapath => simpa [State.intrude, hu] using h
  exact key _ _ (by simp [DatapathFrame])

/-- A masked write of DATAPATH with no rate set of its own under way. -/
theorem mwHeld_of_datapath {s : State} (ha : s.agent = .datapath) (hj : s.dpJob = [])
    (held m v : Word) : DatapathFrame s (s.mwHeld held m v) := by
  have g := gap_of_datapath ha 0
  have ha' : (s.gap 0).agent = .datapath := by
    rw [g]
    exact ha
  have hy := yieldField_alone (s := s.gap 0) (by rw [g]; exact hj) held
  have r : ∀ u : State, u.agent = .datapath → DatapathFrame u u.readEth0 := fun u hu => by
    simp [DatapathFrame, State.readEth0, State.setT, State.logTxn, hu]
  refine g.trans ?_
  show DatapathFrame (s.gap 0) ((((s.gap 0).yieldField held).readEth0.gap held).writeEth0 _)
  rw [hy]
  exact (r _ ha').trans ((gap_of_datapath (s := (s.gap 0).readEth0) ha' held).trans
    (by simp [DatapathFrame, State.writeEth0, State.logTxn]))

end Sys2Proof.Machine
end

