-- ==== Sys2Proof/WellFormed.lean ====
section
/-! DEFINITION. Which operations are in the domain their rules give them (30_encoding.md R79;
41_clock_chain.md R93 to R102; 20_memory.md R47). An ill-formed operation decodes, and its
meaning refuses it by name. -/

namespace Sys2Proof

/-- The operand checks that need no state: the offset of MW, the node each clock operation takes,
the index of a parent, the divisor table, and a positive rate. -/
def Instr.wellFormed : Instr → Bool
  | .mw off _ _ => off == 0 || off == 4
  | .clkRoundRate _ hz => 0 < hz
  | .clkSetParent n i => n == .m250Sel && i < 2
  | .clkSetDiv n d => n == .m250Div && (2 ≤ d && d ≤ 7)
  | .clkSetRate n hz => n == .rgmiiTxEn && 0 < hz
  | .clkEnable n => n == .rgmiiTxEn
  | .clkDisable n => n == .rgmiiTxEn
  | .rdEth0 | .wrEth0 _ | .rdEth1 | .wrEth1 _ => true
  | .rgmiiModeRgmii | .rgmiiModeRmii | .extPhyModeRgmii | .extPhyModeRmii => true
  | .clkM250Sel0 | .clkM250Sel1 | .txdly0 | .txdly1 | .txdly2 | .txdly3 => true
  | .clkM250Div2 | .clkM250Div3 | .clkM250Div4 | .clkM250Div5 | .clkM250Div6 | .clkM250Div7 => true
  | .clkM250DivLow0 | .clkM250DivLow1 | .rgmiiTxClkEn1 | .rgmiiTxClkEn0 => true
  | .invertedRmiiClk1 | .invertedRmiiClk0 | .txAndPhyRefClk1 | .txAndPhyRefClk0 => true
  | .adjEnable1 | .adjEnable0 | .adjSetup1 | .adjSetup0 | .rxdly2ns | .rxdly0ns => true
  | .adjDelay | .adjSkew | .chainBuild | .clkGetRate _ | .chainRelease | .phymodeApply => true
  | .adjClkEnable | .timingApply | .orchInit | .orchRelease => true

end Sys2Proof
end

