-- ==== Sys2Proof/Tests/Slice0.lean ====
section
/-! SUPPORT. The model's own tests: ill-formed operations refused, every constructor's word decoded,
and vectors of 95_test_vectors.md (the expected values are the spec's, by id). -/

/- Many small kernel evaluations: one at a time, so that they do not ask for a thread each. -/
set_option Elab.async false

namespace Sys2Proof.Machine.Tests

/-! ## WellFormed: one ill-formed term for each check -/

theorem test_illformed_mw_offset : Instr.wellFormed (.mw 8 0 0) = false := by decide
theorem test_illformed_roundRate_zero : Instr.wellFormed (.clkRoundRate .rgmiiTxEn 0) = false := by decide
theorem test_illformed_setParent_node : Instr.wellFormed (.clkSetParent .m250Div 0) = false := by decide
theorem test_illformed_setParent_index : Instr.wellFormed (.clkSetParent .m250Sel 2) = false := by decide
theorem test_illformed_setDiv_node : Instr.wellFormed (.clkSetDiv .m250Sel 4) = false := by decide
theorem test_illformed_setDiv_low : Instr.wellFormed (.clkSetDiv .m250Div 1) = false := by decide
theorem test_illformed_setDiv_high : Instr.wellFormed (.clkSetDiv .m250Div 8) = false := by decide
theorem test_illformed_setRate_node : Instr.wellFormed (.clkSetRate .fixedDiv2 1) = false := by decide
theorem test_illformed_setRate_zero : Instr.wellFormed (.clkSetRate .rgmiiTxEn 0) = false := by decide
theorem test_illformed_enable_node : Instr.wellFormed (.clkEnable .m250Div) = false := by decide
theorem test_illformed_disable_node : Instr.wellFormed (.clkDisable .m250Div) = false := by decide

/-! ## Decoding: the words are written out from R62, the opcode table's masks and matches, and the
syntax of R78 and R79 -/

theorem test_decode_rdEth0 : decode (.busRead 0x0 32) = .ok .rdEth0 := by rfl
theorem test_decode_wrEth0 : decode (.busWrite 0x0 32 0x21) = .ok (.wrEth0 0x21) := by rfl
theorem test_decode_rdEth1 : decode (.busRead 0x4 32) = .ok .rdEth1 := by rfl
theorem test_decode_wrEth1 : decode (.busWrite 0x4 32 0x0) = .ok (.wrEth1 0) := by rfl
theorem test_decode_rgmiiModeRgmii : decode (.prgEth0 0x00000001 0x00000001) = .ok .rgmiiModeRgmii := by rfl
theorem test_decode_rgmiiModeRmii : decode (.prgEth0 0x00000001 0x00000000) = .ok .rgmiiModeRmii := by rfl
theorem test_decode_extPhyModeRgmii : decode (.prgEth0 0x00000007 0x00000001) = .ok .extPhyModeRgmii := by rfl
theorem test_decode_extPhyModeRmii : decode (.prgEth0 0x00000007 0x00000004) = .ok .extPhyModeRmii := by rfl
theorem test_decode_clkM250Sel0 : decode (.prgEth0 0x00000010 0x00000000) = .ok .clkM250Sel0 := by rfl
theorem test_decode_clkM250Sel1 : decode (.prgEth0 0x00000010 0x00000010) = .ok .clkM250Sel1 := by rfl
theorem test_decode_txdly0 : decode (.prgEth0 0x00000060 0x00000000) = .ok .txdly0 := by rfl
theorem test_decode_txdly1 : decode (.prgEth0 0x00000060 0x00000020) = .ok .txdly1 := by rfl
theorem test_decode_txdly2 : decode (.prgEth0 0x00000060 0x00000040) = .ok .txdly2 := by rfl
theorem test_decode_txdly3 : decode (.prgEth0 0x00000060 0x00000060) = .ok .txdly3 := by rfl
theorem test_decode_clkM250Div2 : decode (.prgEth0 0x00000380 0x00000100) = .ok .clkM250Div2 := by rfl
theorem test_decode_clkM250Div3 : decode (.prgEth0 0x00000380 0x00000180) = .ok .clkM250Div3 := by rfl
theorem test_decode_clkM250Div4 : decode (.prgEth0 0x00000380 0x00000200) = .ok .clkM250Div4 := by rfl
theorem test_decode_clkM250Div5 : decode (.prgEth0 0x00000380 0x00000280) = .ok .clkM250Div5 := by rfl
theorem test_decode_clkM250Div6 : decode (.prgEth0 0x00000380 0x00000300) = .ok .clkM250Div6 := by rfl
theorem test_decode_clkM250Div7 : decode (.prgEth0 0x00000380 0x00000380) = .ok .clkM250Div7 := by rfl
theorem test_decode_clkM250DivLow0 : decode (.prgEth0 0x00000380 0x00000000) = .ok .clkM250DivLow0 := by rfl
theorem test_decode_clkM250DivLow1 : decode (.prgEth0 0x00000380 0x00000080) = .ok .clkM250DivLow1 := by rfl
theorem test_decode_rgmiiTxClkEn1 : decode (.prgEth0 0x00000400 0x00000400) = .ok .rgmiiTxClkEn1 := by rfl
theorem test_decode_rgmiiTxClkEn0 : decode (.prgEth0 0x00000400 0x00000000) = .ok .rgmiiTxClkEn0 := by rfl
theorem test_decode_invertedRmiiClk1 : decode (.prgEth0 0x00000800 0x00000800) = .ok .invertedRmiiClk1 := by rfl
theorem test_decode_invertedRmiiClk0 : decode (.prgEth0 0x00000800 0x00000000) = .ok .invertedRmiiClk0 := by rfl
theorem test_decode_txAndPhyRefClk1 : decode (.prgEth0 0x00001000 0x00001000) = .ok .txAndPhyRefClk1 := by rfl
theorem test_decode_txAndPhyRefClk0 : decode (.prgEth0 0x00001000 0x00000000) = .ok .txAndPhyRefClk0 := by rfl
theorem test_decode_adjEnable1 : decode (.prgEth0 0x00002000 0x00002000) = .ok .adjEnable1 := by rfl
theorem test_decode_adjEnable0 : decode (.prgEth0 0x00002000 0x00000000) = .ok .adjEnable0 := by rfl
theorem test_decode_adjSetup1 : decode (.prgEth0 0x00004000 0x00004000) = .ok .adjSetup1 := by rfl
theorem test_decode_adjSetup0 : decode (.prgEth0 0x00004000 0x00000000) = .ok .adjSetup0 := by rfl
theorem test_decode_rxdly2ns : decode (.prgEth0 0x00006000 0x00006000) = .ok .rxdly2ns := by rfl
theorem test_decode_rxdly0ns : decode (.prgEth0 0x00006000 0x00000000) = .ok .rxdly0ns := by rfl
theorem test_decode_adjDelay : decode (.prgEth0 0x000F8000 0x00000000) = .ok .adjDelay := by rfl
theorem test_decode_adjSkew : decode (.prgEth0 0x01F00000 0x00000000) = .ok .adjSkew := by rfl
theorem test_decode_mw :
    decode (.pseudo .mw [.imm 0x0, .imm 0x01FFE060, .imm 0x20]) = .ok (.mw 0 0x01FFE060 0x20) := by rfl
theorem test_decode_chainBuild : decode (.pseudo .chainBuild []) = .ok .chainBuild := by rfl
theorem test_decode_clkGetRate :
    decode (.pseudo .clkGetRate [.node .m250Div]) = .ok (.clkGetRate .m250Div) := by rfl
theorem test_decode_clkRoundRate :
    decode (.pseudo .clkRoundRate [.node .rgmiiTxEn, .imm 125000000])
      = .ok (.clkRoundRate .rgmiiTxEn 125000000) := by rfl
theorem test_decode_clkSetParent :
    decode (.pseudo .clkSetParent [.node .m250Sel, .imm 1]) = .ok (.clkSetParent .m250Sel 1) := by rfl
theorem test_decode_clkSetDiv :
    decode (.pseudo .clkSetDiv [.node .m250Div, .imm 4]) = .ok (.clkSetDiv .m250Div 4) := by rfl
theorem test_decode_clkSetRate :
    decode (.pseudo .clkSetRate [.node .rgmiiTxEn, .imm 25000000])
      = .ok (.clkSetRate .rgmiiTxEn 25000000) := by rfl
theorem test_decode_clkEnable :
    decode (.pseudo .clkEnable [.node .rgmiiTxEn]) = .ok (.clkEnable .rgmiiTxEn) := by rfl
theorem test_decode_clkDisable :
    decode (.pseudo .clkDisable [.node .rgmiiTxEn]) = .ok (.clkDisable .rgmiiTxEn) := by rfl
theorem test_decode_chainRelease : decode (.pseudo .chainRelease []) = .ok .chainRelease := by rfl
theorem test_decode_phymodeApply : decode (.pseudo .phymodeApply []) = .ok .phymodeApply := by rfl
theorem test_decode_adjClkEnable : decode (.pseudo .adjEnable []) = .ok .adjClkEnable := by rfl
theorem test_decode_timingApply : decode (.pseudo .timingApply []) = .ok .timingApply := by rfl
theorem test_decode_orchInit : decode (.pseudo .orchInit []) = .ok .orchInit := by rfl
theorem test_decode_orchRelease : decode (.pseudo .orchRelease []) = .ok .orchRelease := by rfl

/-- V-B14: a 16-bit read, and an access at 0x8, have no operation. -/
theorem test_decode_halfword : decode (.busRead 0x0 16) = .error (.badWidth 16) := by rfl
theorem test_decode_offset8 : decode (.busWrite 0x8 32 0) = .error (.badOffset 8) := by rfl
/-- EXT_PHY_MODE = 3 is reserved: no row (R74). -/
theorem test_decode_reserved_mode : decode (.prgEth0 0x7 0x3) = .error (.noRow 0x7 0x3) := by rfl
theorem test_decode_missing_operand :
    decode (.pseudo .clkSetDiv [.node .m250Div]) = .error (.badOperands .clkSetDiv) := by rfl
/-- A mask is 32 bits (R85). -/
theorem test_decode_wide_mask :
    decode (.pseudo .mw [.imm 0, .imm 0x100000000, .imm 0]) = .error (.badOperands .mw) := by rfl

/-- The table's numbering: TXDLY=1 has match 0x20 under an 8-bit mask. -/
theorem test_table_txdly1 : decodeTableWord 8 0x20 = some .txdly1 := by decide
theorem test_table_rdEth0 : decodeTableWord 8 0x0 = some .rdEth0 := by decide
theorem test_table_adjSkew : decodeTableWord 32 0x0 = some .adjSkew := by decide

/-! ## Field decoding (V-E1 to V-E6) -/

theorem test_VE1 : decodeEth0 .extMode 0x00001621
    = ⟨1, none, false, false, 1, 4, true, false, true, false, false, 0, 0, 0⟩ := by decide
theorem test_VE3 : decodeEth0 .legacy 0xFE001F9E
    = ⟨0, some 3, true, true, 0, 7, true, true, true, false, false, 0, 0, 0x7F⟩ := by decide
/-- V-E4: a reserved EXT_PHY_MODE decodes, and the interface select is the draw (R36). -/
theorem test_VE4 : phyIf .extMode 0x00000003 = Config.freePhyIf 3 := by
  simp [phyIf, extPhyModeM]
/-- R76: V-E1's divider field is the row CLK_M250_DIV=4, and V-E4's mode field is reserved. -/
theorem test_readField_div : readField .extMode divM 0x00001621 = .row .clkM250Div4 := by decide
theorem test_readField_reserved : readField .extMode extPhyModeM 0x00000003 = .reserved 3 := by decide
theorem test_VE6 : (decodeEth0 .extMode 0x01FFFFFF).adjSkew = 31 := by decide

/-! ## Helpers -/

/-- An environment in which nothing fails and rate requests go by the reference resolver. -/
def okEnv (w : Word) : Env :=
  { Env.free with
    fails := List.replicate 8 false
    lookups := [.ok, .ok]
    adjs := [.present]
    words := [0xA5A5A5A5]
    rates := [referenceChoice w]
    parents := [(false, false)] }

/-- A small state: PRG_ETH0 and the chain are given, the rest is power-on. -/
def st (w : Word) (c : Chain) : State := { State.reset with reg0 := w, chain := c, env := okEnv w }

/-- A mode string that names the mode (R119). -/
def modeText : PhyMode → String
  | .rgmii => "rgmii"
  | .rgmiiRxid => "rgmii-rxid"
  | .rgmiiId => "rgmii-id"
  | .rgmiiTxid => "rgmii-txid"
  | .rmii => "rmii"
  | .other x => x

/-- The mode strings name their modes; another string is Other (R119). -/
theorem test_mode_strings :
    [PhyMode.rgmii, .rgmiiRxid, .rgmiiId, .rgmiiTxid, .rmii, .other "gmii"].all
      (fun m => phyModeOf (modeText m) == m) = true := by decide

/-- The same with a configuration held and described. -/
def stCfg (fam : Family) (mode : PhyMode) (tx rx : Word) (w : Word) (c : Chain) : State :=
  { st w c with
    params := { Params.default with family := fam }
    desc := ⟨modeText mode, true, some tx, some rx⟩
    cfg := some ⟨mode, fam, tx, rx, .present⟩ }

/-- PRG_ETH0 after an operation that gave a next state. -/
def regOf : Host.Outcome State Fault Refusal → Option Word
  | .next t => some t.reg0
  | _ => none

def resultOf : Host.Outcome State Fault Refusal → Option RunResult
  | .next t => some t.result
  | _ => none

def chainOf : Host.Outcome State Fault Refusal → Option Chain
  | .next t => some t.chain
  | _ => none

def rateOf : Host.Outcome State Fault Refusal → Option Rat
  | .next t => some t.rate
  | _ => none

def outClockOf : Host.Outcome State Fault Refusal → Option Freq
  | .next t => some t.freqOut
  | _ => none

def txnCountOf : Host.Outcome State Fault Refusal → Option Nat
  | .next t => some t.txns.length
  | _ => none

def refusalOf : Host.Outcome State Fault Refusal → Option Refusal
  | .refused r => some r
  | _ => none

/-! ## Bus access (V-B1 to V-B13) -/

theorem test_VB1 : (match exec .rdEth0 (st 0x1621 .none) with | .next t => t.t | _ => 0) = 0x1621 := by decide +kernel
theorem test_VB2 : regOf (exec (.wrEth0 0x21) (st 0xFFFFFFFF .none)) = some 0x21 := by decide +kernel
theorem test_VB3 : (match exec .rdEth1 (st 0x1621 .none) with | .next t => t.t | _ => 0) = 0xA5A5A5A5 := by decide +kernel
theorem test_VB4 : refusalOf (exec (.wrEth1 0) (st 0 .none)) = some .wrEth1OutOfScope := by decide +kernel
theorem test_VB8 : regOf (exec (.mw 0 0x01FFE060 0x6020) (st 0xDEADBEEF .none)) = some 0xDE007EAF := by decide +kernel
theorem test_VB10 : txnCountOf (exec (.mw 0 0 0xFFFFFFFF) (st 0x12345678 .none)) = some 2 := by decide +kernel
/-- Another master's write between the two halves is lost outside the mask (R50, R54). -/
theorem test_lost_update :
    regOf (exec (.mw 0 0x10 0x10)
      { st 0x1 .none with env := { okEnv 0 with gaps := [[], [.write 0xFF]] } }) = some 0x11 := by decide +kernel

/-! ## Field encodings: the row's value in its field, from a word of ones or zeros -/

theorem test_field_rgmiiModeRgmii : regOf (exec .rgmiiModeRgmii (stCfg .legacy .rgmii 2 0 0x00000000 .none)) = some 0x00000001 := by decide +kernel
theorem test_field_rgmiiModeRmii : regOf (exec .rgmiiModeRmii (stCfg .legacy .rgmii 2 0 0xFFFFFFFF .none)) = some 0xFFFFFFFE := by decide +kernel
theorem test_field_extPhyModeRgmii : regOf (exec .extPhyModeRgmii (stCfg .extMode .rgmii 2 0 0x00000006 .none)) = some 0x00000001 := by decide +kernel
theorem test_field_extPhyModeRmii : regOf (exec .extPhyModeRmii (stCfg .extMode .rgmii 2 0 0x00000000 .none)) = some 0x00000004 := by decide +kernel
theorem test_field_clkM250Sel0 : regOf (exec .clkM250Sel0 (stCfg .extMode .rgmii 2 0 0xFFFFFFFF .none)) = some 0xFFFFFFEF := by decide +kernel
theorem test_field_clkM250Sel1 : regOf (exec .clkM250Sel1 (stCfg .extMode .rgmii 2 0 0x00000000 .none)) = some 0x00000010 := by decide +kernel
theorem test_field_txdly0 : regOf (exec .txdly0 (stCfg .extMode .rgmii 2 0 0xFFFFFFFF .none)) = some 0xFFFFFF9F := by decide +kernel
theorem test_field_txdly1 : regOf (exec .txdly1 (stCfg .extMode .rgmii 2 0 0xFFFFFFFF .none)) = some 0xFFFFFFBF := by decide +kernel
theorem test_field_txdly2 : regOf (exec .txdly2 (stCfg .extMode .rgmii 2 0 0xFFFFFFFF .none)) = some 0xFFFFFFDF := by decide +kernel
theorem test_field_txdly3 : regOf (exec .txdly3 (stCfg .extMode .rgmii 2 0 0x00000000 .none)) = some 0x00000060 := by decide +kernel
theorem test_field_clkM250Div2 : regOf (exec .clkM250Div2 (stCfg .extMode .rgmii 2 0 0x00000000 .none)) = some 0x00000100 := by decide +kernel
theorem test_field_clkM250Div3 : regOf (exec .clkM250Div3 (stCfg .extMode .rgmii 2 0 0x00000000 .none)) = some 0x00000180 := by decide +kernel
theorem test_field_clkM250Div4 : regOf (exec .clkM250Div4 (stCfg .extMode .rgmii 2 0 0x00000000 .none)) = some 0x00000200 := by decide +kernel
theorem test_field_clkM250Div5 : regOf (exec .clkM250Div5 (stCfg .extMode .rgmii 2 0 0x00000000 .none)) = some 0x00000280 := by decide +kernel
theorem test_field_clkM250Div6 : regOf (exec .clkM250Div6 (stCfg .extMode .rgmii 2 0 0x00000000 .none)) = some 0x00000300 := by decide +kernel
theorem test_field_clkM250Div7 : regOf (exec .clkM250Div7 (stCfg .extMode .rgmii 2 0 0x00000000 .none)) = some 0x00000380 := by decide +kernel
theorem test_field_clkM250DivLow0 : regOf (exec .clkM250DivLow0 (stCfg .extMode .rgmii 2 0 0xFFFFFFFF .none)) = some 0xFFFFFC7F := by decide +kernel
theorem test_field_clkM250DivLow1 : regOf (exec .clkM250DivLow1 (stCfg .extMode .rgmii 2 0 0xFFFFFFFF .none)) = some 0xFFFFFCFF := by decide +kernel
theorem test_field_rgmiiTxClkEn1 : regOf (exec .rgmiiTxClkEn1 (stCfg .extMode .rgmii 2 0 0x00000000 .none)) = some 0x00000400 := by decide +kernel
theorem test_field_rgmiiTxClkEn0 : regOf (exec .rgmiiTxClkEn0 (stCfg .extMode .rgmii 2 0 0xFFFFFFFF .none)) = some 0xFFFFFBFF := by decide +kernel
theorem test_field_invertedRmiiClk1 : regOf (exec .invertedRmiiClk1 (stCfg .extMode .rgmii 2 0 0x00000000 .none)) = some 0x00000800 := by decide +kernel
theorem test_field_invertedRmiiClk0 : regOf (exec .invertedRmiiClk0 (stCfg .extMode .rgmii 2 0 0xFFFFFFFF .none)) = some 0xFFFFF7FF := by decide +kernel
theorem test_field_txAndPhyRefClk1 : regOf (exec .txAndPhyRefClk1 (stCfg .extMode .rgmii 2 0 0x00000000 .none)) = some 0x00001000 := by decide +kernel
theorem test_field_txAndPhyRefClk0 : regOf (exec .txAndPhyRefClk0 (stCfg .extMode .rgmii 2 0 0xFFFFFFFF .none)) = some 0xFFFFEFFF := by decide +kernel
theorem test_field_adjEnable1 : regOf (exec .adjEnable1 (stCfg .extMode .rgmii 2 0 0x00000000 .none)) = some 0x00002000 := by decide +kernel
theorem test_field_adjEnable0 : regOf (exec .adjEnable0 (stCfg .extMode .rgmii 2 0 0xFFFFFFFF .none)) = some 0xFFFFDFFF := by decide +kernel
theorem test_field_adjSetup1 : regOf (exec .adjSetup1 (stCfg .extMode .rgmii 2 0 0x00000000 .none)) = some 0x00004000 := by decide +kernel
theorem test_field_adjSetup0 : regOf (exec .adjSetup0 (stCfg .extMode .rgmii 2 0 0xFFFFFFFF .none)) = some 0xFFFFBFFF := by decide +kernel
theorem test_field_rxdly2ns : regOf (exec .rxdly2ns (stCfg .extMode .rgmii 2 0 0x00000000 .none)) = some 0x00006000 := by decide +kernel
theorem test_field_rxdly0ns : regOf (exec .rxdly0ns (stCfg .extMode .rgmii 2 0 0xFFFFFFFF .none)) = some 0xFFFF9FFF := by decide +kernel
theorem test_field_adjDelay : regOf (exec .adjDelay (stCfg .extMode .rgmii 2 0 0xFFFFFFFF .none)) = some 0xFFF07FFF := by decide +kernel
theorem test_field_adjSkew : regOf (exec .adjSkew (stCfg .extMode .rgmii 2 0 0xFFFFFFFF .none)) = some 0xFE0FFFFF := by decide +kernel
theorem test_field_other_family :
    refusalOf (exec .rgmiiModeRgmii (stCfg .extMode .rgmii 2 0 0 .none)) = some .fieldOfOtherFamily := by decide +kernel

/-! ## Clock chain (V-C1 to V-C16, V-K1 to V-K21) -/

theorem test_VC4 : roundClosest 1200000000 250000000 = 5 := by decide +kernel
theorem test_VC5 : roundClosest 2000000000 250000000 = 7 := by decide +kernel
theorem test_VC6 : roundClosest 400000000 250000000 = 2 := by decide +kernel
theorem test_VC8 : roundClosest 1200000000 270000000 = 5 := by decide +kernel
theorem test_VC10 : roundClosest 1000000000 (1250000000 / 3) = 3 := by decide +kernel
theorem test_VC16 : roundClosest 1000000000 (3250000000 / 21) = 7 := by decide +kernel

theorem test_VK1 : chainOf (exec .chainBuild (st 0x7 .none)) = some (.built 0) := by decide +kernel
theorem test_VK2 : resultOf (exec .chainBuild
      { st 0 .none with env := { okEnv 0 with lookups := [.ok, .transient] } })
    = some (.failed (.clockAcquisitionFailed .transient .parent1) .chainBuild) := by decide +kernel
theorem test_VK3 : resultOf (exec .chainBuild
      { st 0 .none with env := { okEnv 0 with fails := [false, false, true] } })
    = some (.failed (.clockRegistrationFailed .fixedDiv2) .chainBuild) := by decide +kernel
theorem test_VK4 : rateOf (exec (.clkGetRate .fixedDiv2) (st 0x221 (.built 0))) = some 125000000 := by decide +kernel
theorem test_VK5 : rateOf (exec (.clkGetRate .rgmiiTxEn) (st 0x80 (.built 0))) = some 500000000 := by decide +kernel
theorem test_VK6 : rateOf (exec (.clkRoundRate .rgmiiTxEn 125000000)
      { st 0x21 (.built 0) with p0 := 1200000000 }) = some 120000000 := by decide +kernel
theorem test_VK7 : regOf (exec (.clkSetParent .m250Sel 1) (st 0x221 (.built 0))) = some 0x231 := by decide +kernel
theorem test_VK8 : regOf (exec (.clkSetDiv .m250Div 4) (st 0x21 (.built 0))) = some 0x221 := by decide +kernel
theorem test_VK9 : refusalOf (exec (.clkSetDiv .m250Div 8) (st 0x21 (.built 0))) = some (.badDivisor 8) := by decide +kernel
theorem test_VK10 : regOf (exec (.clkSetRate .rgmiiTxEn 25000000) (st 0x1621 (.built 1))) = some 0x17A1 := by decide +kernel
theorem test_VK10_output : outClockOf (exec (.clkSetRate .rgmiiTxEn 25000000) (st 0x1621 (.built 1)))
    = some (.hz (500000000 / 7)) := by decide +kernel
theorem test_VK13 : resultOf (exec (.clkSetRate .rgmiiTxEn 125000000)
      { st 0x21 (.built 0) with env := { okEnv 0 with fails := [true] } })
    = some (.failed .rateSetFailed .clkSetRate) := by decide +kernel
theorem test_VK14 : regOf (exec (.clkEnable .rgmiiTxEn) (st 0x221 (.built 0))) = some 0x621 := by decide +kernel
theorem test_VK15 : txnCountOf (exec (.clkEnable .rgmiiTxEn) (st 0x621 (.built 1))) = some 0 := by decide +kernel
theorem test_VK17 : regOf (exec (.clkDisable .rgmiiTxEn) (st 0x621 (.built 1))) = some 0x221 := by decide +kernel
theorem test_VK18 : refusalOf (exec (.clkDisable .rgmiiTxEn) (st 0x621 (.built 0))) = some .noEnableOutstanding := by decide +kernel
theorem test_VK19 : regOf (exec .chainRelease (st 0x1621 (.built 2))) = some 0x1221 := by decide +kernel
theorem test_VK20 : txnCountOf (exec .chainRelease (st 0x1F9E (.built 0))) = some 0 := by decide +kernel

/-! ## Mode and timing (V-M1 to V-M7, V-T1 to V-T18) -/

theorem test_VM2 : regOf (exec .phymodeApply (stCfg .legacy .rgmiiTxid 2 0 0x6 .none)) = some 0x7 := by decide +kernel
theorem test_VM5 : regOf (exec .phymodeApply (stCfg .extMode .rmii 2 0 0x3 .none)) = some 0x4 := by decide +kernel
theorem test_VM7 : resultOf (exec .phymodeApply (stCfg .extMode (.other "gmii") 2 0 0x3 .none))
    = some (.failed (.invalidPhyMode (.other "gmii")) .phymodeApply) := by decide +kernel
theorem test_VT1 : [0, 1, 2, 3, 4, 5, 6, 7].map (fun n => txField (BitVec.ofNat 32 n))
    = [0x00, 0x00, 0x20, 0x20, 0x40, 0x40, 0x60, 0x60] := by decide
theorem test_VT2 : [8, 10, 0xFFFFFFFF].map txField = [0x00, 0x20, 0x60] := by decide
theorem test_VT13 : ((st 0x01FFFFFF .none).writeDelay 0x6020).reg0 = 0x00007FBF := by decide +kernel
theorem test_VT14_alternative :
    merge 0xDEADBEEF DelayMask.leavesCalibration.word 0x6020 = 0xDEADFEAF := by decide
theorem test_timing_rgmii : regOf (exec .timingApply (stCfg .extMode .rgmii 2 0 0x1 (.built 0))) = some 0x1621 := by decide +kernel
theorem test_adj_enable : (match exec .adjClkEnable (stCfg .extMode .rgmii 2 2 0 .none) with
    | .next t => t.adjEnabled | _ => false) = true := by decide +kernel

/-! ## Configuration sequence (P1 to P5, V-O1 to V-O11) -/

theorem test_P1 : regOf (exec .orchInit (stCfg .extMode .rgmii 2 0 0 .none)) = some 0x1621 := by decide +kernel
theorem test_P1_clock : outClockOf (exec .orchInit (stCfg .extMode .rgmii 2 0 0 .none)) = some (.hz 125000000) := by decide +kernel
theorem test_P2 : regOf (exec .orchInit (stCfg .legacy .rmii 2 0 0xFFFFFFFF .none)) = some 0xFE001F9E := by decide +kernel
theorem test_P3 : regOf (exec .orchInit { stCfg .extMode .rgmiiTxid 6 2 0 .none with p0 := 1200000000 })
    = some 0x7681 := by decide +kernel
theorem test_P4 : resultOf (exec .orchInit
      { stCfg .legacy .rgmii 2 2 0 .none with env := { okEnv 0 with adjs := [.absent] } })
    = some (.failed (.missingMandatoryClock .adjustment) .timingApply) := by decide +kernel
theorem test_P5 : resultOf (exec .orchInit (stCfg .extMode .rgmii 2 1 0 .none))
    = some (.failed (.invalidDelayValue 1) .validate) := by decide +kernel
theorem test_VO7 : regOf (exec .orchInit
      { stCfg .extMode .rgmii 8 2 0x12345678 .none with p0 := 2000000000 }) = some 0x12007619 := by decide +kernel
theorem test_VT17 : regOf (exec .orchInit { stCfg .extMode .rgmii 2 0 0 .none with
      env := { okEnv 0 with fails := [false, false, false, false, false, true] } }) = some 0x221 := by decide +kernel
theorem test_VT16 : regOf (exec .orchInit { stCfg .extMode .rgmii 2 0 0 .none with
      env := { okEnv 0 with fails := [false, false, false, false, true] } }) = some 0x21 := by decide +kernel
theorem test_VO11 : refusalOf (exec .orchInit { st 0 .none with desc := ⟨"rgmii", false, none, none⟩ })
    = some .unknownFamily := by decide +kernel
theorem test_P6_release : regOf (exec .orchRelease { st 0x17A1 (.built 1) with result := .programmed })
    = some 0x13A1 := by decide +kernel
theorem test_P6_idle : resultOf (exec .orchRelease { st 0x17A1 (.built 1) with result := .programmed })
    = some .idle := by decide +kernel

/-! ## Step: HOST's list, DATAPATH's queue -/

theorem test_step_host : regOf (step (State.reset.withFetchWord 8 0x20)) = some 0x20 := by decide +kernel
theorem test_step_datapath : regOf (step { st 0x1621 (.built 1) with
      result := .programmed
      sched := [.datapath]
      dpQueue := [.pseudo .clkSetRate [.node .rgmiiTxEn, .imm 25000000]] }) = some 0x17A1 := by decide +kernel
theorem test_step_datapath_forbidden : refusalOf (step { st 0x1621 (.built 1) with
      result := .programmed
      sched := [.datapath]
      dpQueue := [.busWrite 0 32 0] }) = some .agentForbidden := by decide +kernel
theorem test_step_stopped : refusalOf (step { st 0 .none with
      stopped := true
      hostProg := [.busRead 0 32] }) = some .listStopped := by decide +kernel

/-- A write of another master is a step of its own, also where HOST's list is at its end (R54). -/
theorem test_step_other_master : regOf (step { st 0x1621 (.built 1) with
      sched := [.other (.write 0xDEADBEEF)] }) = some 0xDEADBEEF := by decide +kernel
/-- DATAPATH's read comes between the two halves of a HOST MW on another field and its write after it:
the MW's bit is lost (R54, R55). -/
theorem test_step_datapath_write_half : regOf (step { st 0x1221 (.built 1) with
      result := .programmed
      dpT := 0x1621
      dpJob := [.writeDiv 7]
      sched := [.datapath] }) = some 0x17A1 := by decide +kernel
/-- A rate set of HOST waits for DATAPATH's write to the divisor, and then DATAPATH for HOST's (R55). -/
theorem test_rate_sets_serialize : regOf (exec (.clkSetRate .rgmiiTxEn 125000000)
    { st 0x21 (.built 0) with
      dpT := 0x21
      dpJob := [.writeDiv 7]
      env := { okEnv 0x21 with gaps := [[], [.datapath, .datapath]] } }) = some 0x221 := by decide +kernel
/-- DATAPATH begins a rate set in a gap of MW, reads, and writes the divisor between MW's halves: MW
restores the old divisor (R54). -/
theorem test_datapath_in_a_gap : regOf (exec (.mw 0 0x800 0x800)
    { st 0x1621 (.built 1) with
      result := .programmed
      dpQueue := [.pseudo .clkSetRate [.node .rgmiiTxEn, .imm 25000000]]
      env := { okEnv 0x1621 with gaps := [[], [.datapath, .datapath, .datapath, .datapath]] } })
      = some 0x1E21 := by decide +kernel

/-- A write of another master between the INV write of TIMING.APPLY and CLK.SET_RATE's choice is the
word the choice is made in: the select it sets is the one the request keeps (R54, R98). -/
theorem test_write_before_the_rate_is_chosen : regOf (exec .timingApply
    { stCfg .extMode .rgmii 2 0 0x1 (.built 0) with
      env := { okEnv 1 with
        gaps := [[], [], [], [], [.write 0x31]]
        rates := [{ referenceChoice 1 with sel := true }] } }) = some 0x1631 := by decide +kernel
/-- DATAPATH's whole masked write of the select comes between HOST's write of the divisor and HOST's
read for the select: it holds no field there (R55). -/
theorem test_datapath_select_between_the_writes :
    (match exec (.clkSetRate .rgmiiTxEn 125000000) { st 0x21 (.built 0) with
        dpJob := [.setSel true false]
        env := { okEnv 0x21 with
          gaps := [[], [], [.datapath, .datapath]]
          rates := [{ referenceChoice 0x21 with divFirst := true, skipSel := false }] } } with
      | .next t => t.txns.map (fun x => (x.agent, x.dir))
      | _ => []) =
    [(.host, .read), (.host, .write), (.datapath, .read), (.datapath, .write),
      (.host, .read), (.host, .write)] := by decide +kernel
/-- A write that may be skipped is not, where another master's write has just taken its value away
(R54, R98). -/
theorem test_skip_is_tested_after_the_gap : regOf (exec (.clkSetRate .rgmiiTxEn 125000000)
    { st 0x221 (.built 0) with
      env := { okEnv 0x221 with gaps := [[.write 0x231]] } }) = some 0x221 := by decide +kernel

/-! ## Witnesses: for each statement with hypotheses, a state and operands that meet them together,
at the boundary of each clause's range -/

/-- The outcome is a next state with the property. -/
def nextHas (p : State → Bool) : Host.Outcome State Fault Refusal → Bool
  | .next t => p t
  | _ => false

theorem exists_next {p : State → Bool} {o : Host.Outcome State Fault Refusal}
    (h : nextHas p o = true) : ∃ t, o = .next t ∧ p t = true := by
  cases o with
  | next t => exact ⟨t, rfl, h⟩
  | fault f => cases h
  | refused r => cases h

/-- A small state is HOST's, alone on the bus. -/
theorem alone_st (w : Word) (c : Chain) : HostAlone (st w c) := ⟨rfl, exclusive_of_nil rfl rfl⟩

theorem alone_stCfg (f : Family) (m : PhyMode) (tx rx w : Word) (c : Chain) :
    HostAlone (stCfg f m tx rx w c) := ⟨rfl, exclusive_of_nil rfl rfl⟩

/-- A small state after ORCH.INIT, with DATAPATH's turn. -/
def stDp (w : Word) : State := { st w (.built 1) with agent := .datapath, result := .programmed }

/-- A small state in which the environment's failure answers are given. -/
def stFail (w : Word) (c : Chain) (l : List Bool) : State :=
  { st w c with env := { okEnv w with fails := l } }

/-- A configured small state with the failure answers and the adjustment-clock answer given. -/
def stInit (f : Family) (m : PhyMode) (rx w : Word) (l : List Bool) (adj : AdjLookup) : State :=
  { stCfg f m 2 rx w .none with env := { okEnv w with fails := l, adjs := [adj] } }

/-- A configured state whose instance checks the rx field (`ADJ_CHECK_ON = rx_config`). -/
def stRxConfig (l : List Bool) (c : Chain) : State :=
  let s := stCfg .extMode .rmii 2 2 0 c
  { s with params := { s.params with adjCheckOn := .rxConfig }, env := { okEnv 0 with fails := l } }

theorem witness_EncodeOfDecode :
    decode (.busWrite 4 32 7) = .ok (.wrEth1 7) ∧
    decode (.prgEth0 0x01F00000 0) = .ok .adjSkew ∧
    decode (.pseudo .mw [.imm 0, .imm 0xFFFFFFFF, .imm 0]) = .ok (.mw 0 0xFFFFFFFF 0) :=
  ⟨rfl, rfl, rfl⟩

theorem witness_FieldPrepThenGet : 0 + 32 ≤ 32 ∧ 32 + 0 ≤ 32 ∧ 7 + 25 ≤ 32 := by decide

/-- HOST's list and DATAPATH's queue. -/
def stProg (l q : List OpWord) (a : List Turn) : State :=
  { st 0x1621 (.built 1) with result := .programmed, hostProg := l, dpQueue := q, sched := a }

theorem witness_StepRunsDecodedOperation_host :
    (stProg [.busRead 0 32] [] []).nextTurn = .host ∧
    (stProg [.busRead 0 32] [] []).stopped = false ∧
    (stProg [.busRead 0 32] [] []).fetch = some (.busRead 0 32) ∧
    decode (.busRead 0 32) = .ok .rdEth0 := ⟨rfl, rfl, rfl, rfl⟩

theorem witness_StepRunsDecodedOperation_datapath :
    (stProg [] [.pseudo .clkGetRate [.node .rgmiiTxEn]] [.datapath]).nextTurn = .datapath ∧
    (stProg [] [.pseudo .clkGetRate [.node .rgmiiTxEn]] [.datapath]).fetch =
      some (.pseudo .clkGetRate [.node .rgmiiTxEn]) ∧
    decode (.pseudo .clkGetRate [.node .rgmiiTxEn]) = .ok (.clkGetRate .rgmiiTxEn) :=
  ⟨rfl, rfl, rfl⟩

/-- Turns of another agent: each clause, with the divisor at the ends of the table. -/
theorem witness_OtherAgentsActBetweenOperations :
    (stProg [] [] [.other (.write 7)]).nextTurn = .other (.write 7) ∧
    ((stProg [] [] [.other .datapath]).nextTurn = .other .datapath ∧
      (stProg [] [] [.other .datapath]).dpJob = [] ∧ (stProg [] [] [.other .datapath]).dpQueue = []) ∧
    (let s := stProg [] [encode (.clkSetRate .rgmiiTxEn 1)] [.other .datapath]
     s.nextTurn = .other .datapath ∧ s.dpJob = [] ∧ s.dpQueue = encode (.clkSetRate .rgmiiTxEn 1) :: [] ∧
       s.result = .programmed ∧ s.chain = .built 1 ∧ 0 < (1 : Nat) ∧ s.env.failAt 0 = false) ∧
    ({ stProg [] [encode (.clkSetRate .rgmiiTxEn 1)] [.other .datapath] with
        env := { okEnv 0 with fails := [true] } }.env.failAt 0 = true) ∧
    (∀ m : DpMove, { stProg [] [] [.datapath] with dpJob := [m] }.nextTurn = .other .datapath) ∧
    ((2 : Nat) ≤ 2 ∧ (2 : Nat) ≤ 7) ∧ ((2 : Nat) ≤ 7 ∧ (7 : Nat) ≤ 7) :=
  ⟨rfl, ⟨rfl, rfl, rfl⟩, ⟨rfl, rfl, rfl, rfl, rfl, by decide, rfl⟩, rfl, fun _ => rfl, by decide, by decide⟩

/-- A rate query and a rounding in a turn of another agent. -/
theorem witness_OtherAgentsActBetweenOperations_query :
    (let s := stProg [] [encode (.clkGetRate .rgmiiTxEn)] [.other .datapath]
     s.nextTurn = .other .datapath ∧ s.dpJob = [] ∧ s.dpQueue = encode (.clkGetRate .rgmiiTxEn) :: [] ∧
       s.result = .programmed ∧ s.chain = .built 1) ∧
    (let s := stProg [] [encode (.clkRoundRate .rgmiiTxEn 1)] [.other .datapath]
     s.nextTurn = .other .datapath ∧ s.dpJob = [] ∧
       s.dpQueue = encode (.clkRoundRate .rgmiiTxEn 1) :: [] ∧ s.result = .programmed ∧
       s.chain = .built 1 ∧ 0 < (1 : Nat)) :=
  ⟨⟨rfl, rfl, rfl, rfl, rfl⟩, ⟨rfl, rfl, rfl, rfl, rfl, by decide⟩⟩

/-- Each way a request of DATAPATH is refused there: no operation, no chain, 0 Hz, another operation. -/
theorem witness_OtherAgentsActBetweenOperations_refused :
    ((stProg [] [.busRead 8 32] [.other .datapath]).nextTurn = .other .datapath ∧
      (stProg [] [.busRead 8 32] [.other .datapath]).dpJob = [] ∧
      (stProg [] [.busRead 8 32] [.other .datapath]).dpQueue = .busRead 8 32 :: [] ∧
      decode (.busRead 8 32) = .error (.badOffset 8)) ∧
    ({ stProg [] [encode (.clkGetRate .rgmiiTxEn)] [] with chain := .none }.chain = .none ∧
      decode (encode (.clkGetRate .rgmiiTxEn)) = .ok (.clkGetRate .rgmiiTxEn)) ∧
    decode (encode (.clkRoundRate .rgmiiTxEn 0)) = .ok (.clkRoundRate .rgmiiTxEn 0) ∧
    decode (encode (.clkSetRate .rgmiiTxEn 0)) = .ok (.clkSetRate .rgmiiTxEn 0) ∧
    (decode (encode .orchInit) = .ok .orchInit ∧ Instr.orchInit ≠ .clkGetRate .rgmiiTxEn ∧
      ∀ hz, Instr.orchInit ≠ .clkRoundRate .rgmiiTxEn hz ∧ Instr.orchInit ≠ .clkSetRate .rgmiiTxEn hz) := by
  refine ⟨⟨rfl, rfl, rfl, rfl⟩, ⟨rfl, rfl⟩, rfl, rfl, rfl, by decide, fun hz => ⟨?_, ?_⟩⟩ <;> intro h <;> cases h

/-- HOST's CLK.SET_RATE with a move of DATAPATH under way, the divider first or last, none skipped. -/
def stSerial (m : DpMove) (divFirst : Bool) : State :=
  { st 0x21 (.built 1) with
    result := .programmed
    dpJob := [m]
    env := { okEnv 0x21 with rates := [⟨true, none, none, 5, divFirst, false, false⟩] } }

/-- The hypotheses of each clause, whatever the move; the divisors are the ends of the table. -/
theorem witness_RateRequestsOnOneFieldAreSerial :
    (∀ m b, (stSerial m b).agent = .host ∧ (stSerial m b).chain = .built 1 ∧
      (stSerial m b).dpJob = m :: [] ∧ (stSerial m b).env.failAt 0 = false ∧
      (stSerial m b).env.rateNow.divFirst = b ∧ (stSerial m b).env.rateNow.skipSel = false ∧
      (stSerial m b).env.rateNow.skipDiv = false ∧
      ∀ x y e, e = { (stSerial m b).env with nFail := 1, nRate := 1 } →
        (({ stSerial m b with p0 := x, p1 := y, env := e } : State).gap 0).dpJob = m :: []) ∧
    0 < (1 : Nat) ∧ ((2 : Nat) ≤ 2 ∧ (2 : Nat) ≤ 7) ∧ ((2 : Nat) ≤ 7 ∧ (7 : Nat) ≤ 7) ∧
    ¬ (true = true ∧ selBit (stSerial (.setSel true true) false).reg0 = true) ∧
    ¬ (true = true ∧ divRaw (stSerial (.setDiv 7 true) true).reg0 = 7) := by
  refine ⟨fun m b => ⟨rfl, rfl, rfl, rfl, rfl, rfl, rfl, ?_⟩, by decide, by decide, by decide,
    by decide +kernel, by decide +kernel⟩
  rintro x y e rfl
  rfl

theorem witness_RowsReadTheWord :
    (divM, FieldReading.row .clkM250Div4) ∈ readFields .extMode 0x00001621 ∧
    (adjDelayM, FieldReading.reserved 0x00008000) ∈ readFields .legacy 0x00008000 := by
  decide

theorem witness_StepsRefusedByName :
    (State.reset.nextTurn = .host ∧ { State.reset with stopped := true }.stopped = true) ∧
    (State.reset.stopped = false ∧ State.reset.hostProg.length ≤ State.reset.pos) ∧
    ((stProg [.busRead 8 32] [] []).nextTurn = .host ∧
      (stProg [.busRead 8 32] [] []).fetch = some (.busRead 8 32) ∧
      decode (.busRead 8 32) = .error (.badOffset 8)) ∧
    ((8 : Nat) ≠ 32 ∨ ((0 : Nat) ≠ 0 ∧ (0 : Nat) ≠ 4)) ∧
    ((32 : Nat) ≠ 32 ∨ ((3 : Nat) ≠ 0 ∧ (3 : Nat) ≠ 4)) := by
  refine ⟨⟨rfl, rfl⟩, ⟨rfl, ?_⟩, ⟨rfl, rfl, rfl⟩, ?_, ?_⟩ <;> decide

theorem witness_HostOperationsAdvanceOrRaise :
    (st 0 .none).agent = .host ∧
    (∃ t, exec .rdEth0 (st 0 .none) = .next t ∧ decide (t.pos = 1) = true) ∧
    (∃ t, exec (.clkEnable .rgmiiTxEn) (stFail 0 (.built 0) [true]) = .next t ∧
      decide (t.stopped = true) = true) ∧
    (∃ t, exec .orchRelease { st 0 .none with result := .programmed } = .next t ∧
      decide (t.result = .idle) = true) :=
  ⟨rfl, exists_next (by decide +kernel), exists_next (by decide +kernel),
    exists_next (by decide +kernel)⟩

theorem witness_ReadsHaveNoSideEffect :
    (st 0x1621 .none).agent = .host ∧
    ∃ t, exec .rdEth1 (st 0x1621 .none) = .next t ∧ decide (t.pos = 1) = true :=
  ⟨rfl, exists_next (by decide +kernel)⟩

/-- Two reads of one environment that differ. -/
theorem witness_ReadEth1DrawsAnyValue : (st 0x1621 .none).agent = .host ∧ (0 : Word) ≠ 0xFFFFFFFF :=
  ⟨rfl, by decide⟩

theorem witness_WriteEth0ReplacesEveryBit :
    (st 0x21 .none).agent = .host ∧ (0x21 : Word) = (st 0x21 .none).reg0 := ⟨rfl, rfl⟩

theorem witness_LaterMaskedWriteOverrides : HostAlone (st 0xDEADBEEF .none) := alone_st _ _

theorem witness_WindowIsLittleEndian :
    (0 : Nat) < 32 ∧ (31 : Nat) < 32 ∧
    (let base := ({ st 0 .none with params := { Params.default with base := 4096 } }).params.base
     (4095 < base ∨ base + 8 ≤ 4095) ∧ (4104 < base ∨ base + 8 ≤ 4104)) := by
  decide

theorem witness_MaskedWriteMergesUnderMask :
    { st 1 .none with env := { okEnv 1 with gaps := [[.write 2], [.datapath]] } }.agent = .host ∧
    { st 1 .none with env := { okEnv 1 with gaps := [[.write 2], [.datapath]] } }.env.gapAt 0 = [.write 2] ∧
    ((st 1 .none).env.gapAt 0 = [] ∧ (st 1 .none).env.gapAt 1 = []) ∧
    { st 1 .none with env := { okEnv 1 with gaps := [[], [.write 3]] } }.env.gapAt 1 = [.write 3] ∧
    (1 : Nat) ≠ 0 ∧ (1 : Nat) ≠ 4 ∧ (8 : Nat) ≠ 0 ∧ (8 : Nat) ≠ 4 := by
  refine ⟨rfl, rfl, ⟨rfl, rfl⟩, rfl, ?_⟩
  decide

theorem witness_ModeRowsSelectInterface :
    (HostAlone (stCfg .legacy .rgmii 2 0 6 .none) ∧
      (stCfg .legacy .rgmii 2 0 6 .none).params.family = .legacy) ∧
    (HostAlone (stCfg .extMode .rgmii 2 0 6 .none) ∧
      (stCfg .extMode .rgmii 2 0 6 .none).params.family = .extMode) :=
  ⟨⟨alone_stCfg .., rfl⟩, ⟨alone_stCfg .., rfl⟩⟩

theorem witness_DelayAndControlRowsSetTheirField : HostAlone (st 0xFFFFFFFF .none) := alone_st _ _

theorem witness_ClockRowsSetSelectAndDivisor : HostAlone (st 0 .none) ∧ (0 : Nat) < 8 ∧ (7 : Nat) < 8 :=
  ⟨alone_st _ _, by decide, by decide⟩

theorem witness_ChainBuildCompletes :
    (st 7 .none).agent = .host ∧ (st 7 .none).env.lookupAt 0 = .ok ∧
    (st 7 .none).env.lookupAt 1 = .ok ∧ NoFailure (st 7 .none) 4 ∧ (st 7 .none).stages = [] := by
  refine ⟨rfl, rfl, rfl, ?_, rfl⟩
  unfold NoFailure
  decide

/-- CHAIN.BUILD: a small state with the lookups given. -/
def stLook (l : List Lookup) (f : List Bool) : State :=
  { st 7 .none with env := { okEnv 7 with lookups := l, fails := f } }

theorem witness_ChainBuildReportsFirstFailure :
    (stLook [.transient] []).env.lookupAt 0 = .transient ∧
    (stLook [.permanent] []).env.lookupAt 0 = .permanent ∧
    ((stLook [.ok, .transient] []).env.lookupAt 0 = .ok ∧
      (stLook [.ok, .transient] []).env.lookupAt 1 = .transient) ∧
    ((stLook [.ok, .permanent] []).env.lookupAt 0 = .ok ∧
      (stLook [.ok, .permanent] []).env.lookupAt 1 = .permanent) ∧
    ([Node.m250Sel, .m250Div, .fixedDiv2, .rgmiiTxEn][0]? = some .m250Sel ∧
      NoFailure (stLook [.ok, .ok] [true]) 0 ∧ (stLook [.ok, .ok] [true]).env.failAt 0 = true) ∧
    ([Node.m250Sel, .m250Div, .fixedDiv2, .rgmiiTxEn][3]? = some .rgmiiTxEn ∧
      NoFailure (stLook [.ok, .ok] [false, false, false, true]) 3 ∧
      (stLook [.ok, .ok] [false, false, false, true]).env.failAt 3 = true) ∧
    (stLook [.ok, .ok] [true]).stages = [] := by
  refine ⟨rfl, rfl, ⟨rfl, rfl⟩, ⟨rfl, rfl⟩, ⟨rfl, ?_, rfl⟩, ⟨rfl, ?_, rfl⟩, rfl⟩ <;>
  · unfold NoFailure
    decide

theorem witness_GetRateReportsConfiguredRate :
    (st 0x80 (.built 0)).agent = .host ∧ (st 0x80 (.built 0)).chain = .built 0 ∧
    (st 0x221 .none).chain = .none := ⟨rfl, rfl, rfl⟩

/-- The smallest rate, answered by the reference resolver: for the rounding, the rate set and the
reference resolver's own statement. -/
theorem witness_ReferenceResolverSetsOneDivisor :
    HostAlone (st 0x21 (.built 0)) ∧ (st 0x21 (.built 0)).chain = .built 0 ∧ 0 < (1 : Nat) ∧
    (st 0x21 (.built 0)).env.failAt 0 = false ∧ ReferenceResolver (st 0x21 (.built 0)) :=
  ⟨alone_st _ _, rfl, by decide, rfl, rfl⟩

theorem witness_SetRateEndsInAnOutcome :
    HostAlone (st 0x21 (.built 0)) ∧ (st 0x21 (.built 0)).chain = .built 0 ∧ 0 < (1 : Nat) ∧
    (st 0x21 (.built 0)).env.failAt 0 = false :=
  ⟨alone_st _ _, rfl, by decide, rfl⟩

theorem witness_RoundRateReportsAnOutcome :
    (st 0x21 (.built 0)).agent = .host ∧ (st 0x21 (.built 0)).chain = .built 0 ∧ 0 < (1 : Nat) ∧
    ReferenceResolver (st 0x21 (.built 0)) :=
  ⟨rfl, rfl, by decide, rfl⟩

theorem witness_RoundRateReportsAnOutcome_refused :
    ((st 0 .none).agent = .host ∧ ((st 0 .none).chain = .none ∨ (5 : Nat) = 0)) ∧
    ((st 0 (.built 0)).agent = .host ∧ ((st 0 (.built 0)).chain = .none ∨ (0 : Nat) = 0)) :=
  ⟨⟨rfl, .inl rfl⟩, ⟨rfl, .inr rfl⟩⟩

theorem witness_SetParentWritesSelect :
    HostAlone (st 0x221 (.built 0)) ∧ (0 : Nat) < 2 ∧ (1 : Nat) < 2 ∧ Node.m250Div ≠ .m250Sel ∧
    (st 0x221 (.built 0)).chain ≠ .none ∧ (2 : Nat) ≤ 2 := by
  refine ⟨alone_st _ _, ?_⟩
  decide

theorem witness_SetDivWritesDivisor :
    HostAlone (st 0x21 (.built 0)) ∧ (2 ≤ 2 ∧ 2 ≤ 7) ∧ (2 ≤ 7 ∧ 7 ≤ 7) ∧ Node.m250Sel ≠ .m250Div ∧
    (st 0x21 (.built 0)).chain ≠ .none ∧ (1 < 2 ∨ 7 < 1) ∧ (8 < 2 ∨ 7 < 8) := by
  refine ⟨alone_st _ _, ?_⟩
  decide

/-- Outcomes of a rate request: the select changed, and the select and the parent kept. -/
theorem witness_SetRateEndsInAnOutcome_every :
    ((st 0x21 (.built 0)).agent = .host ∧ (st 0x21 (.built 0)).dpJob = [] ∧
      (st 0x21 (.built 0)).chain = .built 0) ∧
    Outcomes (st 0x21 (.built 0)) (2 * ((125000000 : Nat) : Rat)) ⟨true, 1000000000, 5, 7⟩ ∧
    Outcomes (st 0x21 (.built 0)) (2 * ((125000000 : Nat) : Rat)) ⟨false, 1000000000, 5, 4⟩ := by
  unfold Outcomes
  decide +kernel

theorem witness_RateSetFailureChangesNoRegister :
    (stFail 0x21 (.built 0) [true]).chain = .built 0 ∧ 0 < (1 : Nat) ∧
    (stFail 0x21 (.built 0) [true]).env.failAt 0 = true ∧
    (stFail 0x21 (.built 0) [true]).agent = .host ∧
    { stFail 0x21 (.built 0) [true] with agent := .datapath, result := .programmed }.agent
      = .datapath ∧ Node.m250Sel ≠ .rgmiiTxEn := by
  refine ⟨rfl, ?_, rfl, rfl, rfl, ?_⟩ <;> decide

theorem witness_DatapathRateOperationsComplete :
    (stDp 0x1621).agent = .datapath ∧ (stDp 0x1621).result = .programmed ∧
    (stDp 0x1621).chain = .built 1 ∧ 0 < (1 : Nat) ∧ ExclusiveInit (stDp 0x1621) ∧
    (stDp 0x1621).env.failAt 0 = false ∧
    { stDp 0x1621 with chain := .none }.chain = .none ∧ ((stDp 0x1621).chain = .none ∨ (0 : Nat) = 0) :=
  ⟨rfl, rfl, rfl, by decide, exclusive_of_nil rfl rfl, rfl, rfl, .inr rfl⟩

/-- DATAPATH's rate set with other masters' writes in its gaps. -/
theorem witness_DatapathRateOperationsComplete_interference :
    let s := { stDp 0x1621 with
      env := { okEnv 0x1621 with gaps := [[.write 0xFF], [.write 0, .datapath], [.write 0x10]] } }
    s.agent = .datapath ∧ s.result = .programmed ∧ s.chain = .built 1 ∧ 0 < (1 : Nat) ∧ s.dpJob = [] ∧
      s.env.failAt 0 = false ∧ s.env.gapAt 0 = [.write 0xFF] :=
  ⟨rfl, rfl, rfl, by decide, rfl, rfl, rfl⟩

theorem witness_OtherDatapathOperationsAreRefused :
    ({ st 0 .none with agent := .datapath }.agent = .datapath ∧
      { st 0 .none with agent := .datapath }.result ≠ .programmed) ∧
    ((stDp 0).agent = .datapath ∧
      (Instr.clkGetRate .m250Div ≠ .clkGetRate .rgmiiTxEn ∧
        ∀ hz, Instr.clkGetRate .m250Div ≠ .clkRoundRate .rgmiiTxEn hz ∧
          Instr.clkGetRate .m250Div ≠ .clkSetRate .rgmiiTxEn hz)) := by
  refine ⟨⟨rfl, by decide⟩, rfl, by decide, fun hz => ⟨?_, ?_⟩⟩ <;> intro h <;> cases h

theorem witness_EnableOpensGateOnce :
    (HostAlone (st 0x221 (.built 0)) ∧ (st 0x221 (.built 0)).env.failAt 0 = false) ∧
    ((st 0x621 (.built 1)).chain = .built (0 + 1) ∧ (st 0x621 (.built 1)).env.failAt 0 = false) ∧
    ((stFail 0x221 (.built 0) [true]).chain = .built 0 ∧
      (stFail 0x221 (.built 0) [true]).env.failAt 0 = true) ∧ Node.fixedDiv2 ≠ .rgmiiTxEn :=
  ⟨⟨alone_st _ _, rfl⟩, ⟨rfl, rfl⟩, ⟨rfl, rfl⟩, by decide⟩

theorem witness_LastDisableClosesGate :
    (HostAlone (st 0x621 (.built 1)) ∧ (st 0x621 (.built 1)).chain = .built 1) ∧
    (st 0x621 (.built 2)).chain = .built (0 + 2) ∧ (st 0x621 (.built 0)).chain = .built 0 ∧
    (st 0x621 .none).chain = .none ∧ Node.m250Sel ≠ .rgmiiTxEn :=
  ⟨⟨alone_st _ _, rfl⟩, rfl, rfl, rfl, by decide⟩

theorem witness_ChainReleaseGatesOffOnce :
    (st 0x1F9E (.built 0)).chain = .built 0 ∧
    (HostAlone (st 0x1621 (.built 2)) ∧ (st 0x1621 (.built 2)).chain = .built (1 + 1)) ∧
    (st 0x1621 .none).chain = .none :=
  ⟨rfl, ⟨alone_st _ _, rfl⟩, rfl⟩

theorem witness_InterferenceDoesNotReachTheWrittenField :
    ({ st 1 (.built 0) with env := { okEnv 1 with gaps := [[], [.write 0xFF]] } }.agent = .host ∧
      { st 1 (.built 0) with env := { okEnv 1 with gaps := [[], [.write 0xFF]] } }.env.failAt 0
        = false) ∧ (1 : Nat) < 2 ∧ (2 : Nat) ≤ 7 ∧ (st 1 (.built 1)).chain = .built 1 ∧
    ((stCfg .legacy .rmii 2 0 7 .none).cfg = some ⟨.rmii, .legacy, 2, 0, .present⟩ ∧
      ∀ x, PhyMode.rmii ≠ .other x) ∧
    ((stCfg .extMode .rgmiiId 2 0 7 .none).cfg = some ⟨.rgmiiId, .extMode, 2, 0, .present⟩ ∧
      ∀ x, PhyMode.rgmiiId ≠ .other x) ∧
    (⟨none, adjSkewM, 0x00000000, .adjSkew⟩ ∈ fieldRows ∧
      FieldRow.inFamily ⟨none, adjSkewM, 0x00000000, .adjSkew⟩ .legacy = true) := by
  refine ⟨⟨rfl, rfl⟩, by decide, by decide, rfl, ⟨rfl, fun _ h => by cases h⟩,
    ⟨rfl, fun _ h => by cases h⟩, ?_, rfl⟩
  decide

theorem witness_RoundClosestIsClosest :
    (0 : Rat) < 1000000000 ∧ (0 : Rat) < 1250000000 / 3 ∧ (2 ≤ 2 ∧ 2 ≤ 7) ∧ (2 ≤ 7 ∧ 7 ≤ 7) := by
  decide +kernel

theorem witness_OutputClockFrequency :
    ((st 0x621 (.built 1)).parentRuns false = true ∧ (0x621 : Word).getLsbD 10 = true) ∧
    (st 0x621 (.built 0)).parentRuns false = false ∧ (0x221 : Word).getLsbD 10 = false ∧
    (st 0x621 (.built 1)).chain.enabled = true ∧
    { st 0x221 (.built 0) with run0 := true }.parentRuns false = true := by
  decide +kernel

theorem witness_PhyModeApplyWritesModeField :
    (HostAlone (stCfg .legacy .rmii 2 0 7 .none) ∧
      (stCfg .legacy .rmii 2 0 7 .none).cfg = some ⟨.rmii, .legacy, 2, 0, .present⟩ ∧
      (∀ x, PhyMode.rmii ≠ .other x) ∧ (stCfg .legacy .rmii 2 0 7 .none).params.family = .legacy) ∧
    (stCfg .extMode .rgmiiId 2 0 7 .none).cfg = some ⟨.rgmiiId, .extMode, 2, 0, .present⟩ :=
  ⟨⟨alone_stCfg .., rfl, (fun _ h => by cases h), rfl⟩, rfl⟩

theorem witness_PhyModeApplyWritesModeField_other :
    (stCfg .extMode (.other "gmii") 2 0 7 .none).agent = .host ∧
    (stCfg .extMode (.other "gmii") 2 0 7 .none).cfg
      = some ⟨.other "gmii", .extMode, 2, 0, .present⟩ :=
  ⟨rfl, rfl⟩

theorem witness_AdjEnableStartsTheClock :
    ((stCfg .extMode .rgmii 2 2 0 .none).adjClk = .present ∧
      (stCfg .extMode .rgmii 2 2 0 .none).env.failAt 0 = false) ∧
    ((stInit .extMode .rgmii 2 0 [true] .present).adjClk = .present ∧
      (stInit .extMode .rgmii 2 0 [true] .present).env.failAt 0 = true) ∧
    (st 0 .none).adjClk = .absent := ⟨⟨rfl, rfl⟩, ⟨rfl, rfl⟩, rfl⟩

/-- An ADJ.ENABLE of HOST's own that fails assigns nothing: an earlier one's effect stays (R113, R131). -/
theorem test_failing_adj_enable_alone :
    nextHas (fun t => t.adjEnabled && t.result == .failed (.clockEnableFailed .adjustment) .adjEnable)
      (exec .adjClkEnable { stInit .extMode .rgmii 2 0 [true] .present with adjEnabled := true })
      = true := by decide +kernel

/-- An enable in step 4 that fails leaves `adj_enabled = false`, an earlier enable's too (R118). -/
theorem test_failing_adj_enable :
    nextHas (fun t => !t.adjEnabled && t.result == .failed (.clockEnableFailed .adjustment) .timingApply)
      (exec .timingApply { stCfg .extMode .rgmii 2 2 0x1 (.built 0) with
        adjEnabled := true
        env := { okEnv 1 with fails := [true] } }) = true := by decide +kernel

theorem witness_TimingApplyRgmiiFamily :
    let s := stCfg .extMode .rgmii 2 2 0x1 (.built 0)
    HostAlone s ∧ s.cfg = some ⟨.rgmii, .extMode, 2, 2, .present⟩ ∧ s.chain = .built 0 ∧
      isRgmiiFamily .rgmii = true ∧ ((2 : Word) = 0 ∨ (2 : Word) = 2) ∧
      (needsAdjClock s .rgmii 2 → AdjClk.present = .present) ∧ NoFailure s 3 ∧
      ReferenceResolver s := by
  refine ⟨alone_stCfg .., rfl, rfl, rfl, .inr rfl, fun _ => rfl, ?_, rfl⟩
  unfold NoFailure
  decide

theorem witness_TimingApplyRmii :
    let s := stCfg .legacy .rmii 2 2 0xFFFFFFFF (.built 0)
    HostAlone s ∧ s.cfg = some ⟨.rmii, .legacy, 2, 2, .present⟩ ∧ s.chain = .built 0 ∧
      ((2 : Word) = 0 ∨ (2 : Word) = 2) ∧ ¬ needsAdjClock s .rmii 2 := by
  refine ⟨alone_stCfg .., rfl, rfl, .inr rfl, ?_⟩
  unfold needsAdjClock
  decide

theorem witness_TimingApplyRmii_rxConfig :
    let s := stRxConfig [false] (.built 3)
    HostAlone s ∧ s.cfg = some ⟨.rmii, .extMode, 2, 2, .present⟩ ∧ s.chain = .built 3 ∧
      needsAdjClock s .rmii 2 ∧ AdjClk.present = .present ∧ s.env.failAt 0 = false := by
  refine ⟨⟨rfl, exclusive_of_nil rfl rfl⟩, rfl, rfl, ?_, rfl, rfl⟩
  unfold needsAdjClock
  decide

theorem witness_TimingApplyRejectsBeforeWriting :
    (st 0 .none).cfg = none ∧
    (stCfg .extMode .rgmii 2 0 0 .none).chain = .none ∧
    ((stCfg .extMode .rgmii 2 1 0 (.built 0)).chain ≠ .none ∧ (1 : Word) ≠ 0 ∧ (1 : Word) ≠ 2) ∧
    ((stCfg .extMode .rgmii 2 3 0 (.built 0)).chain ≠ .none ∧ (3 : Word) ≠ 0 ∧ (3 : Word) ≠ 2) ∧
    ((stCfg .extMode (.other "gmii") 2 0 0 (.built 0)).chain ≠ .none ∧
      (stCfg .extMode (.other "gmii") 2 0 0 (.built 0)).cfg
        = some ⟨.other "gmii", .extMode, 2, 0, .present⟩) := by
  decide +kernel

/-- TIMING.APPLY fails by a rate set and by an enable. -/
theorem witness_TimingFailureKeepsWritesDone :
    (∃ t, exec .timingApply { stCfg .extMode .rgmii 2 0 0x1 (.built 0) with
        env := { okEnv 1 with fails := [true] } } = .next t ∧
      decide (t.result = .failed .rateSetFailed .timingApply) = true) ∧
    (∃ t, exec .timingApply { stCfg .extMode .rgmii 2 0 0x1 (.built 0) with
        env := { okEnv 1 with fails := [false, true] } } = .next t ∧
      decide (t.result = .failed (.clockEnableFailed .rgmiiTx) .timingApply) = true) ∧
    (∃ t, exec .timingApply { stCfg .extMode .rgmii 2 2 0x1 (.built 0) with
        env := { okEnv 1 with fails := [true] } } = .next t ∧
      decide (t.result = .failed (.clockEnableFailed .adjustment) .timingApply) = true) ∧
    (∃ t, exec .timingApply { stCfg .extMode .rgmii 2 2 0x1 (.built 0) with
        cfg := some ⟨.rgmii, .extMode, 2, 2, .absent⟩ } = .next t ∧
      decide (t.result = .failed (.missingMandatoryClock .adjustment) .timingApply) = true) ∧
    (∀ k g, (stCfg .extMode .rgmii 2 0 0x1 (.built 0)).result ≠ .failed k g) :=
  ⟨exists_next (by decide +kernel), exists_next (by decide +kernel), exists_next (by decide +kernel),
    exists_next (by decide +kernel), fun _ _ h => by cases h⟩

theorem witness_OrchInitProgramsRgmiiFamily :
    let s := stInit .extMode .rgmiiRxid 2 0 (List.replicate 7 false) .absent
    HostAlone s ∧ s.result = .idle ∧ s.desc.namesFamily = true ∧ phyModeOf s.desc.mode = .rgmiiRxid ∧
      isRgmiiFamily .rgmiiRxid = true ∧ s.desc.rxDelay.getD 0 = 2 ∧
      (s.env.adjNow = .absent ∧ ¬ needsAdjClock s .rgmiiRxid (s.desc.rxDelay.getD 0)) ∧
      s.env.lookupAt 0 = .ok ∧ s.env.lookupAt 1 = .ok ∧ NoFailure s 7 ∧ ReferenceResolver s := by
  refine ⟨⟨rfl, exclusive_of_nil rfl rfl⟩, rfl, rfl, by decide, rfl, rfl, ⟨rfl, ?_⟩, rfl, rfl, ?_, rfl⟩
  · unfold needsAdjClock
    decide
  · unfold NoFailure
    decide

theorem witness_OrchInitProgramsRgmiiFamily_present :
    let s := stInit .legacy .rgmii 2 0xFFFFFFFF (List.replicate 7 false) .present
    HostAlone s ∧ s.result = .idle ∧ s.desc.namesFamily = true ∧ phyModeOf s.desc.mode = .rgmii ∧
      isRgmiiFamily .rgmii = true ∧ s.desc.rxDelay.getD 0 = 2 ∧ s.env.adjNow = .present ∧
      s.env.lookupAt 0 = .ok ∧ s.env.lookupAt 1 = .ok ∧ NoFailure s 7 ∧ ReferenceResolver s := by
  refine ⟨⟨rfl, exclusive_of_nil rfl rfl⟩, rfl, rfl, by decide, rfl, rfl, rfl, rfl, rfl, ?_, rfl⟩
  unfold NoFailure
  decide

theorem witness_OrchInitProgramsRmii :
    (let s := stInit .legacy .rmii 0 0xFFFFFFFF (List.replicate 4 false) .absent
     HostAlone s ∧ s.result = .idle ∧ s.desc.namesFamily = true ∧ phyModeOf s.desc.mode = .rmii ∧
      s.desc.rxDelay.getD 0 = 0 ∧ s.env.adjNow = .absent ∧
      ¬ needsAdjClock s .rmii (s.desc.rxDelay.getD 0) ∧
      s.env.lookupAt 0 = .ok ∧ s.env.lookupAt 1 = .ok ∧ NoFailure s 4) ∧
    { st 0 .none with result := .programmed }.result ≠ .idle ∧
    { st 0 .none with desc := ⟨"rgmii", false, none, none⟩ }.desc.namesFamily = false := by
  refine ⟨⟨⟨rfl, exclusive_of_nil rfl rfl⟩, rfl, rfl, by decide, rfl, rfl, ?_, rfl, rfl, ?_⟩, ?_, rfl⟩
  · unfold needsAdjClock
    decide
  · unfold NoFailure
    decide
  · decide

/-- RMII with rx 2 under rx_config (V-T12): the adjustment clock is asked for and started. -/
theorem witness_OrchInitProgramsRmii_rxConfig :
    let s := stRxConfig (List.replicate 5 false) .none
    HostAlone s ∧ s.result = .idle ∧ s.desc.namesFamily = true ∧ phyModeOf s.desc.mode = .rmii ∧
      s.desc.rxDelay.getD 0 = 2 ∧ s.env.adjNow = .present ∧ s.env.failAt 4 = false ∧
      needsAdjClock s .rmii (s.desc.rxDelay.getD 0) ∧
      s.env.lookupAt 0 = .ok ∧ s.env.lookupAt 1 = .ok ∧ NoFailure s 4 ∧
      nextHas (fun t => t.adjEnabled && t.result == .programmed) (exec .orchInit s) = true := by
  refine ⟨⟨rfl, exclusive_of_nil rfl rfl⟩, rfl, rfl, by decide, rfl, rfl, rfl, ?_, rfl, rfl, ?_,
    by decide +kernel⟩
  · unfold needsAdjClock
    decide
  · unfold NoFailure
    decide

/-- Every acquired configuration: a run that ends Programmed, and one that fails at once. -/
theorem witness_ConfigurationIsTheDescriptions :
    (∃ t, exec .orchInit (stInit .extMode .rgmii 2 0 (List.replicate 7 false) .present) = .next t ∧
      decide (t.cfg = some ⟨.rgmii, .extMode, 2, 2, .present⟩) = true) ∧
    (∃ t, exec .orchInit (stInit .legacy (.other "gmii") 1 0 [] .present) = .next t ∧
      decide (t.cfg = some ⟨.other "gmii", .legacy, 2, 1, .absent⟩) = true) :=
  ⟨exists_next (by decide +kernel), exists_next (by decide +kernel)⟩

/-- Other agents at work: a write of another master before and between HOST's transactions, and a rate
set of DATAPATH in the gaps. -/
def busyGaps : List (List Intrusion) :=
  [[.write 0xFF, .datapath], [.datapath], [.write 0], [.datapath, .write 0xFFFFFFFF]]

theorem witness_SequencesCompleteUnderInterference :
    (let s := { st 0x21 (.built 0) with env := { okEnv 0x21 with gaps := busyGaps } }
     s.agent = .host ∧ s.chain = .built 0 ∧ 0 < (1 : Nat) ∧ s.env.failAt 0 = false ∧
       (s.dpQueue = [] ∨ s.result ≠ .programmed)) ∧
    (let s := { stCfg .extMode .rgmii 2 2 0x1 (.built 0) with
        result := .programmed
        dpQueue := [.pseudo .clkSetRate [.node .rgmiiTxEn, .imm 1]]
        env := { okEnv 1 with gaps := busyGaps } }
     s.cfg = some ⟨.rgmii, .extMode, 2, 2, .present⟩ ∧ s.chain = .built 0 ∧
       (∀ x, PhyMode.rgmii ≠ .other x) ∧ NoFailure s (3 + s.dpQueue.length)) ∧
    (let s := { stInit .legacy .rmii 0 0xFFFFFFFF (List.replicate 8 false) .absent with
        dpQueue := [.pseudo .clkSetRate [.node .rgmiiTxEn, .imm 1]]
        env := { okEnv 1 with adjs := [.absent], gaps := busyGaps } }
     s.result = .idle ∧ s.desc.namesFamily = true ∧ phyModeOf s.desc.mode = .rmii ∧
       (∀ x, PhyMode.rmii ≠ .other x) ∧ s.desc.rxDelay.getD 0 = 0 ∧ s.env.adjNow = .absent ∧
       ¬ needsAdjClock s .rmii (s.desc.rxDelay.getD 0) ∧
       s.env.lookupAt 0 = .ok ∧ s.env.lookupAt 1 = .ok ∧ NoFailure s (7 + s.dpQueue.length)) := by
  refine ⟨⟨rfl, rfl, by decide, rfl, .inl rfl⟩, ⟨rfl, rfl, (fun _ h => by cases h), ?_⟩,
    ⟨rfl, rfl, by decide, (fun _ h => by cases h), rfl, rfl, ?_, rfl, rfl, ?_⟩⟩
  · unfold NoFailure
    decide
  · unfold needsAdjClock
    decide
  · unfold NoFailure
    decide

/-- The releases among other agents: an enabled chain, and a finished run of each kind. -/
theorem witness_SequencesCompleteUnderInterference_release :
    (let s := { st 0x1621 (.built (1 + 1)) with
        result := .programmed
        env := { okEnv 0x1621 with gaps := busyGaps } }
     s.agent = .host ∧ s.chain = .built (1 + 1) ∧ s.result = .programmed) ∧
    (let s := { st 0x1621 (.built (0 + 1)) with
        result := .failed .rateSetFailed .timingApply
        env := { okEnv 0x1621 with gaps := busyGaps } }
     s.agent = .host ∧ s.chain = .built (0 + 1) ∧ s.result = .failed .rateSetFailed .timingApply) :=
  ⟨⟨rfl, rfl, rfl⟩, ⟨rfl, rfl, rfl⟩⟩

theorem witness_ProgrammedRunSetsConfiguredFields :
    (∃ t, exec .orchInit (stInit .extMode .rgmii 2 0xFFFFFFFF (List.replicate 7 false) .present)
      = .next t ∧ decide (t.result = .programmed) = true) ∧
    (∃ t, exec .orchInit (stInit .legacy .rmii 0 0xFFFFFFFF (List.replicate 7 false) .absent)
      = .next t ∧ decide (t.result = .programmed) = true) :=
  ⟨exists_next (by decide +kernel), exists_next (by decide +kernel)⟩

/-- The first part: an rx delay on each side of the two that are allowed. -/
theorem witness_FirstFailureEndsTheRun_validate :
    (stInit .extMode .rgmii 1 0 [] .absent).agent = .host ∧
    (stInit .extMode .rgmii 1 0 [] .absent).result = .idle ∧
    (stInit .extMode .rgmii 1 0 [] .absent).desc.namesFamily = true ∧
    (stInit .extMode .rgmii 1 0 [] .absent).desc.rxDelay = some 1 ∧
    (1 : Word) ≠ 0 ∧ (1 : Word) ≠ 2 ∧ (3 : Word) ≠ 0 ∧ (3 : Word) ≠ 2 := by
  decide +kernel

/-- A run in which step 4 asks for the adjustment clock (rx 2 in RGMII), with the answers given. -/
def stFirst (adj : AdjLookup) (look : List Lookup) (l : List Bool) : State :=
  { stInit .extMode .rgmii 2 0 l adj with
    env := { okEnv 0 with fails := l, adjs := [adj], lookups := look } }

/-- The second part: what each of its clauses assumes of the answers. -/
theorem witness_FirstFailureEndsTheRun :
    (HostAlone (stFirst .present [.ok, .ok] []) ∧ (stFirst .present [.ok, .ok] []).result = .idle ∧
      (stFirst .present [.ok, .ok] []).desc.namesFamily = true ∧
      (stFirst .present [.ok, .ok] []).desc.rxDelay.getD 0 = 2) ∧
    (stFirst .transient [] []).env.adjNow = .transient ∧
    (stFirst .permanent [] []).env.adjNow = .permanent ∧
    (stFirst .absent [.transient] []).env.lookupAt 0 = .transient ∧
    (stFirst .absent [.permanent] []).env.lookupAt 0 = .permanent ∧
    ((stFirst .present [.ok, .transient] []).env.lookupAt 0 = .ok ∧
      (stFirst .present [.ok, .transient] []).env.lookupAt 1 = .transient) ∧
    (stFirst .present [.ok, .permanent] []).env.lookupAt 1 = .permanent ∧
    (NoFailure (stFirst .present [.ok, .ok] [true]) 0 ∧
      (stFirst .present [.ok, .ok] [true]).env.failAt 0 = true) ∧
    (NoFailure (stFirst .present [.ok, .ok] [false, false, false, true]) 3 ∧
      (stFirst .present [.ok, .ok] [false, false, false, true]).env.failAt 3 = true) := by
  refine ⟨⟨⟨rfl, exclusive_of_nil rfl rfl⟩, rfl, rfl, rfl⟩, rfl, rfl, rfl, rfl, ⟨rfl, rfl⟩, rfl,
    ⟨fun _ h => absurd h (Nat.not_lt_zero _), rfl⟩, ?_, rfl⟩
  unfold NoFailure
  decide

/-- The errors of the mode and of TIMING.APPLY, each with the draws that come before it: with the
adjustment clock asked for (rx 2) and without (rx 0). -/
theorem witness_FirstFailureEndsTheRun_timing :
    [stFirst .absent [.transient] [true],
      stFirst .present [.ok, .permanent] [],
      stInit .extMode (.other "gmii") 2 0 (List.replicate 4 false) .absent,
      stFirst .absent [.ok, .ok] (List.replicate 4 false ++ [true, true]),
      stFirst .present [.ok, .ok] (List.replicate 4 false ++ [true]),
      stFirst .present [.ok, .ok] (List.replicate 5 false ++ [true]),
      stFirst .present [.ok, .ok] (List.replicate 6 false ++ [true]),
      stInit .extMode .rgmii 0 0 (List.replicate 4 false ++ [true]) .absent,
      stInit .extMode .rgmii 0 0 (List.replicate 5 false ++ [true]) .absent].map
      (fun s => resultOf (exec .orchInit s)) =
    [some (.failed (.clockAcquisitionFailed .transient .parent0) .chainBuild),
      some (.failed (.clockAcquisitionFailed .permanent .parent1) .chainBuild),
      some (.failed (.invalidPhyMode (.other "gmii")) .phymodeApply),
      some (.failed (.missingMandatoryClock .adjustment) .timingApply),
      some (.failed (.clockEnableFailed .adjustment) .timingApply),
      some (.failed .rateSetFailed .timingApply),
      some (.failed (.clockEnableFailed .rgmiiTx) .timingApply),
      some (.failed .rateSetFailed .timingApply),
      some (.failed (.clockEnableFailed .rgmiiTx) .timingApply)] ∧
    nextHas (fun t => t.adjHeld) (exec .orchInit (stFirst .present [.ok, .permanent] [])) = true ∧
    nextHas (fun t => !t.adjHeld) (exec .orchInit (stFirst .absent [.transient] [true])) = true := by
  decide +kernel

/-- One failing run for each row of R143's table. -/
theorem witness_FailingRunLeavesStateOfTable :
    [stInit .extMode .rgmii 1 0 [] .present,
      stInit .extMode .rgmii 2 0 [] .permanent,
      stInit .extMode .rgmii 2 0 [false, true] .present,
      stInit .extMode (.other "gmii") 2 0 (List.replicate 4 false) .present,
      stInit .extMode .rgmii 2 0 (List.replicate 4 false) .absent,
      stInit .extMode .rgmii 0 0 (List.replicate 4 false ++ [true]) .present,
      stInit .extMode .rgmii 0 0 (List.replicate 5 false ++ [true]) .present].map
      (fun s => resultOf (exec .orchInit s)) =
    [some (.failed (.invalidDelayValue 1) .validate),
      some (.failed (.clockAcquisitionFailed .permanent .adjustment) .acquireAdj),
      some (.failed (.clockRegistrationFailed .m250Div) .chainBuild),
      some (.failed (.invalidPhyMode (.other "gmii")) .phymodeApply),
      some (.failed (.missingMandatoryClock .adjustment) .timingApply),
      some (.failed .rateSetFailed .timingApply),
      some (.failed (.clockEnableFailed .rgmiiTx) .timingApply)] ∧
    HostAlone (stInit .extMode .rgmii 1 0 [] .present) ∧
    (stInit .extMode .rgmii 1 0 [] .present).chain = .none ∧
    (stInit .extMode .rgmii 1 0 [] .present).adjEnabled = false :=
  ⟨by decide +kernel, ⟨rfl, exclusive_of_nil rfl rfl⟩, rfl, rfl⟩

theorem witness_OrchReleaseReturnsToIdle :
    (HostAlone { st 0x1621 (.built 1) with result := .programmed } ∧
      { st 0x1621 (.built 1) with result := .programmed }.chain.enabled = true) ∧
    (HostAlone { st 0x221 (.built 0) with result := .failed .rateSetFailed .timingApply } ∧
      { st 0x221 (.built 0) with result := .failed .rateSetFailed .timingApply }.chain.enabled
        = false) ∧ (st 0 .none).result = .idle ∧
    { st 0 .none with result := .running }.result = .running :=
  ⟨⟨⟨rfl, exclusive_of_nil rfl rfl⟩, rfl⟩, ⟨⟨rfl, exclusive_of_nil rfl rfl⟩, rfl⟩, rfl, rfl⟩

/-- A run, its release, and a second run, with answers for both. -/
def stTwice : State :=
  { stCfg .extMode .rgmii 2 0 0x0 .none with
    env := { okEnv 0 with
      fails := List.replicate 12 false
      lookups := [.ok, .ok, .ok, .ok]
      adjs := [.present, .present]
      rates := [referenceChoice 0, referenceChoice 0] } }

/-- The state an operation gives, or the one it started in. -/
def after (i : Instr) (s : State) : State :=
  match exec i s with
  | .next t => t
  | _ => s

theorem witness_ConfiguringTwiceIsIdempotent :
    HostAlone stTwice ∧ ReferenceResolver stTwice ∧
    nextHas (fun t => t.result == .programmed) (exec .orchInit stTwice) = true ∧
    nextHas (fun t => t.env.rateNow == referenceChoice t.reg0)
      (exec .orchRelease (after .orchInit stTwice)) = true ∧
    nextHas (fun t => t.result == .programmed)
      (exec .orchInit (after .orchRelease (after .orchInit stTwice))) = true :=
  ⟨⟨rfl, exclusive_of_nil rfl rfl⟩, rfl, by decide +kernel, by decide +kernel, by decide +kernel⟩

theorem witness_UndescribedBitsAreKept :
    ExclusiveInit (stCfg .legacy .rmii 2 0 0xFFFFFFFF (.built 0)) ∧
    (stCfg .legacy .rmii 2 0 0xFFFFFFFF (.built 0)).params.family = .legacy ∧
    (∀ c, (stCfg .legacy .rmii 2 0 0xFFFFFFFF (.built 0)).cfg = some c → c.family = .legacy) ∧
    ∃ t, exec .timingApply (stCfg .legacy .rmii 2 0 0xFFFFFFFF (.built 0)) = .next t ∧
      decide (t.pos = 1) = true :=
  ⟨exclusive_of_nil rfl rfl, rfl, (fun _ h => by cases h; rfl), exists_next (by decide +kernel)⟩

theorem witness_ParentRatesChangeOnlyByRateRequests :
    ExclusiveInit { st 0 (.built 0) with
        env := { okEnv 0 with rates := [⟨true, none, some 7, 0, true, true, true⟩] } } ∧
    ∃ t, exec (.clkSetRate .rgmiiTxEn 1) { st 0 (.built 0) with
        env := { okEnv 0 with rates := [⟨true, none, some 7, 0, true, true, true⟩] } } = .next t ∧
      decide (t.p1 ≠ 1000000000) = true :=
  ⟨exclusive_of_nil rfl rfl, exists_next (by decide +kernel)⟩

theorem witness_StepsKeepParametersAndProgram :
    ∃ t, step (State.reset.withFetchWord 8 0x20) = .next t ∧ decide (t.pos = 1) = true :=
  exists_next (by decide +kernel)

/-- A step from a state with the invariant and an enabled chain. -/
theorem witness_StepsKeepTheInvariant :
    let s := { stProg [.pseudo .clkDisable [.node .rgmiiTxEn]] [] [] with
      run0 := true
      run1 := true
      stages := [.m250Sel, .m250Div, .fixedDiv2, .rgmiiTxEn] }
    Inv s ∧ ∃ t, step s = .next t ∧ decide (t.chain = .built 0) = true := by
  refine ⟨⟨by decide +kernel, by decide +kernel, fun _ => ⟨rfl, rfl⟩, fun _ n => ?_, ?_, ?_, ?_, ?_⟩,
    exists_next (by decide +kernel)⟩
  · cases n <;> decide
  all_goals
    intro h
    intros
    contradiction

/-- A turn of another agent from a state with the invariant: a divisor write under way. -/
theorem witness_StepsKeepTheInvariant_other :
    let s := { stProg [] [] [.other .datapath] with chain := .none, dpJob := [.writeDiv 7] }
    Inv s ∧ ∃ t, step s = .next t ∧ decide (t.dpJob = []) = true := by
  refine ⟨⟨by decide +kernel, by decide +kernel, ?_, ?_, ?_, ?_, ?_, ?_⟩, exists_next (by decide +kernel)⟩
  · intro h
    cases h
  · intro h
    exact absurd rfl h
  · intro h
    cases h
  · intro h
    cases h
  · intro c h
    cases h
  · intro m h
    obtain rfl := List.mem_singleton.1 h
    show 7 ∈ Config.divisors
    decide

theorem witness_PowerOnHasTheInvariant : (0 : Rat) < 1 / 3 ∧ (0 : Rat) < 25000000 := by
  decide +kernel

theorem witness_DatapathIsConfinedToTheRate :
    (stDp 0x1621).agent = .datapath ∧ ExclusiveInit (stDp 0x1621) ∧
    ∃ t, exec (.clkSetRate .rgmiiTxEn 25000000) (stDp 0x1621) = .next t ∧
      decide (t.reg0 = 0x17A1) = true :=
  ⟨rfl, exclusive_of_nil rfl rfl, exists_next (by decide +kernel)⟩

end Sys2Proof.Machine.Tests
end

/-! # The scope family (00_scope.md): what no step changes, and the configuration ORCH.INIT acquires -/

namespace Sys2Proof.Machine

/-! ## What one step can be (R42, R54) -/

/-- A step is one transaction of another agent, or the decoded operation run in the issued state. -/
theorem step_eq_next {s t : State} (h : step s = .next t) :
    (∃ x, t = s.issue.intrude 0 x) ∨
      ∃ w i, s.fetch = some w ∧ decode w = .ok i ∧ exec i s.issue = .next t := by
  unfold step at h
  split at h
  case h_1 x _ =>
    cases h
    exact .inl ⟨x, rfl⟩
  case h_2 =>
    split at h
    · cases h
    · split at h
      · cases h
      · rename_i w hw
        split at h
        · cases h
        · exact .inr ⟨w, _, hw, ‹_›, h⟩

/-! ## What the operations keep

Most of the state's setup no operation reaches. The configuration is the exception: ORCH.INIT writes
one, and within a run only the answer of the clock lookup in it changes. So what may become of it is a
parameter `C`, taken twice: anything, for every step, and `SameRequest`, for what comes after the
acquisition in one ORCH.INIT. -/

/-- The instance's parameters, PRG_ETH1, the description and HOST's list are as they were, and the
configuration has changed as `C` allows. -/
structure KeepsSetup (C : Option Cfg → Option Cfg → Prop) (s t : State) : Prop where
  params : t.params = s.params
  reg1 : t.reg1 = s.reg1
  desc : t.desc = s.desc
  hostProg : t.hostProg = s.hostProg
  cfg : C s.cfg t.cfg

/-- Changes of the configuration that can be chained, and that the lookup of the adjustment clock makes
(R121). -/
structure ConfigChange (C : Option Cfg → Option Cfg → Prop) : Prop where
  refl : ∀ a, C a a
  trans : ∀ a b c, C a b → C b c → C a c
  adjClk : ∀ c k, C (some c) (some { c with adjClk := k })

/-- A configuration held stays held, but for what is known of the adjustment clock. -/
def SameRequest (a b : Option Cfg) : Prop :=
  ∀ c, a = some c → ∃ k, b = some { c with adjClk := k }

theorem configChange_any : ConfigChange (fun _ _ => True) :=
  ⟨fun _ => trivial, fun _ _ _ _ _ => trivial, fun _ _ => trivial⟩

theorem configChange_sameRequest : ConfigChange SameRequest where
  refl _ c h := ⟨c.adjClk, h⟩
  trans _ _ _ hab hbd c hc := by
    obtain ⟨k, hk⟩ := hab c hc
    obtain ⟨k', hk'⟩ := hbd _ hk
    exact ⟨k', hk'⟩
  adjClk _ k _ h := by
    cases h
    exact ⟨k, rfl⟩

section
variable {C : Option Cfg → Option Cfg → Prop} (hC : ConfigChange C)
include hC

theorem ConfigChange.steady : Steady (KeepsSetup C) where
  refl _ := ⟨rfl, rfl, rfl, rfl, hC.refl _⟩
  trans _ _ _ h k := ⟨k.params.trans h.params, k.reg1.trans h.reg1, k.desc.trans h.desc,
    k.hostProg.trans h.hostProg, hC.trans _ _ _ h.cfg k.cfg⟩

/-- A state that has all five fields of another. -/
theorem ConfigChange.same {s t : State} (hp : t.params = s.params) (hr : t.reg1 = s.reg1)
    (hd : t.desc = s.desc) (hl : t.hostProg = s.hostProg) (hc : t.cfg = s.cfg) : KeepsSetup C s t :=
  ⟨hp, hr, hd, hl, hc ▸ hC.refl _⟩

/-- A masked write, other agents between its transactions, reaches none of the five fields. -/
theorem ConfigChange.mwFrame {s t : State} (h : MwFrame s t) : KeepsSetup C s t := by
  unfold MwFrame at h
  rw [h]
  exact hC.same rfl rfl rfl rfl rfl

theorem ConfigChange.mwHeld (held m v : Word) (s : State) : KeepsSetup C s (s.mwHeld held m v) :=
  hC.mwFrame (mwHeld_spec held m v s).1

theorem ConfigChange.disableTo (n : Nat) (s : State) : KeepsSetup C s (s.disableTo n) := by
  unfold State.disableTo
  split
  · have hw := hC.mwHeld 0 gateM 0 { s with chain := .built 0 }
    exact ⟨hw.params, hw.reg1, hw.desc, hw.hostProg, hw.cfg⟩
  · exact hC.same rfl rfl rfl rfl rfl

/-- Every elementary move of an operation keeps the setup, whatever family's mode field it writes. -/
theorem ConfigChange.moves : Moves (KeepsSetup C) (fun _ => True) where
  toSteady := hC.steady
  popFail _ := hC.same rfl rfl rfl rfl rfl
  popLookup _ := hC.same rfl rfl rfl rfl rfl
  popRate _ := hC.same rfl rfl rfl rfl rfl
  popAdj _ := hC.same rfl rfl rfl rfl rfl
  readEth0 _ := hC.same rfl rfl rfl rfl rfl
  readEth1 _ := hC.same rfl rfl rfl rfl rfl
  setRate _ _ := hC.same rfl rfl rfl rfl rfl
  gap u := hC.mwFrame (gap_spec 0 u).1.mwFrame
  control u held m v _ := hC.mwHeld held m v u
  modeField u f v _ := hC.mwHeld 0 (modeMask f) v u
  par0 _ := hC.same rfl rfl rfl rfl rfl
  par1 _ := hC.same rfl rfl rfl rfl rfl
  stage _ _ := hC.same rfl rfl rfl rfl rfl
  chainBuilt _ _ := hC.same rfl rfl rfl rfl rfl
  openGate u _ := by
    have hw := hC.mwHeld 0 gateM 0x00000400 { u with run0 := true, run1 := true }
    exact ⟨hw.params, hw.reg1, hw.desc, hw.hostProg, hw.cfg⟩
  count _ _ _ := hC.same rfl rfl rfl rfl rfl
  disable u n _ := hC.disableTo n u
  unregister _ := hC.same rfl rfl rfl rfl rfl
  adjClock _ _ := hC.same rfl rfl rfl rfl rfl
  config u c a h := ⟨rfl, rfl, rfl, rfl, h ▸ hC.adjClk c a⟩
  adjHandle _ := hC.same rfl rfl rfl rfl rfl

theorem ConfigChange.keepsRates : KeepsRates (KeepsSetup C) :=
  fun _ _ _ => hC.same rfl rfl rfl rfl rfl

/-- Completing an operation and taking its raise reach none of the five fields. -/
theorem ConfigChange.settle {s t : State} {r : Res} (h : r.All (KeepsSetup C s))
    (ht : r.settle = .next t) : KeepsSetup C s t := by
  obtain ⟨u, hu, rfl | ⟨k, g, rfl⟩⟩ := settle_all h ht
  · exact hC.steady.trans _ _ _ hu (hC.same rfl rfl rfl rfl rfl)
  · exact hC.steady.trans _ _ _ hu (hC.same rfl rfl rfl rfl rfl)

/-- The release drops the chain and the handles (R132). -/
theorem ConfigChange.releaseResources (s : State) : KeepsSetup C s s.releaseResources := by
  unfold State.releaseResources
  split
  · rename_i n hn
    have hdrop := hC.moves.dropChain hC.moves.gap hC.moves.disable hC.moves.unregister n s hn
    exact hC.steady.trans _ _ _ hdrop (hC.same rfl rfl rfl rfl rfl)
  · exact hC.same rfl rfl rfl rfl rfl

/-- The steps of ORCH.INIT after acquisition keep the setup, with the configuration acquired (R122). -/
theorem ConfigChange.configure {c : Cfg} {s : State} (hs : s.cfg = some c) :
    (Machine.configure c s).All (KeepsSetup C s) :=
  hC.moves.configure hC.moves.popAdj hC.moves.adjHandle hC.moves.chainBuild c
    (fun u a h => hC.moves.config u c a h) (fun u => hC.moves.phyMode _ _ trivial u)
    (fun u => hC.moves.timing hC.keepsRates _ _ _ u) s hs

end

/-! ## No step changes the parameters, PRG_ETH1, the description or HOST's list (R3, R7, R42, R58) -/

/-- The setup as it was, whatever has become of the configuration. -/
abbrev SameProgram : State → State → Prop := KeepsSetup (fun _ _ => True)

theorem exec_sameProgram {i : Instr} {s t : State} (h : exec i s = .next t) : SameProgram s t := by
  have hC := configChange_any
  by_cases hi : i = .orchRelease
  · subst hi
    obtain ⟨_, _, rfl⟩ := execOrchRelease_next h
    exact hC.steady.trans _ _ _ (hC.releaseResources s) (hC.same rfl rfl rfl rfl rfl)
  · have hrun : KeepsRun SameProgram :=
      ⟨fun _ _ _ _ => ⟨rfl, rfl, rfl, rfl, trivial⟩, fun _ => ⟨rfl, rfl, rfl, rfl, trivial⟩⟩
    have hraw : ∀ v, SameProgram s (s.writeEth0 v) := fun _ => hC.same rfl rfl rfl rfl rfl
    have hop := hC.moves.opOf i s (fun _ => hC.keepsRates) (fun _ => hrun)
      ⟨fun _ => hraw, fun _ m v => hC.mwHeld 0 m v s⟩ trivial (fun _ _ => trivial)
    exact hC.settle hop (exec_next h hi).1

/-- Issuing an operation sets the agent and uses up its turn (log 17). -/
theorem issue_sameProgram (s : State) : SameProgram s s.issue := by
  unfold State.issue
  split <;> exact configChange_any.same rfl rfl rfl rfl rfl

/-- Settles O56: both kinds of step, on top of the issue of the turn. -/
theorem stepsKeepParametersAndProgram : Obligations.StepsKeepParametersAndProgram := by
  intro s t h
  have hrun : SameProgram s.issue t := by
    rcases step_eq_next h with ⟨x, rfl⟩ | ⟨_, _, _, _, he⟩
    · exact configChange_any.mwFrame (intrude_spec 0 s.issue x).1.mwFrame
    · exact exec_sameProgram he
  have hall := configChange_any.steady.trans _ _ _ (issue_sameProgram s) hrun
  exact ⟨hall.params, hall.reg1, hall.desc, hall.hostProg⟩

/-! ## The mode strings (R119; log 28) -/

theorem phyModeOf_of_mem {n : String × PhyMode} (h : n ∈ modeNames) : phyModeOf n.1 = n.2 := by
  revert n
  decide

/-- A string is in the table with the mode it gives, or gives `Other` of itself. -/
theorem phyModeOf_cases (text : String) :
    (text, phyModeOf text) ∈ modeNames ∨ phyModeOf text = .other text := by
  unfold phyModeOf
  split
  · rename_i n hn
    have htext : n.1 = text := by simpa using List.find?_some hn
    exact .inl (htext ▸ List.mem_of_find?_eq_some hn)
  · exact .inr rfl

/-- No string of the table gives `Other`. -/
theorem not_other_of_mem {n : String × PhyMode} (h : n ∈ modeNames) (x : String) : n.2 ≠ .other x := by
  revert n
  simp [modeNames]

theorem phyModeOf_eq_iff {text : String} {m : PhyMode} (hm : ∀ x, m ≠ .other x) :
    phyModeOf text = m ↔ (text, m) ∈ modeNames := by
  refine ⟨fun h => ?_, fun h => phyModeOf_of_mem h⟩
  rcases phyModeOf_cases text with hmem | hother
  · exact h ▸ hmem
  · exact absurd (h.symm.trans hother) (hm text)

theorem phyModeOf_eq_other {text x : String} (h : phyModeOf text = .other x) : x = text := by
  rcases phyModeOf_cases text with hmem | hother
  · exact absurd h (not_other_of_mem hmem x)
  · simpa using h.symm.trans hother

/-! ## The configuration ORCH.INIT acquires (R3, R119) -/

/-- What `acquire` gives: the mode the string names, FAMILY, and the delays with their defaults. -/
theorem acquire_eq_some {f : Family} {d : Description} {c : Cfg} (h : acquire f d = some c) :
    c = ⟨phyModeOf d.mode, f, d.txDelay.getD 2, d.rxDelay.getD 0, .absent⟩ := by
  unfold acquire at h
  split at h <;> cases h
  rfl

/-- However an ORCH.INIT of HOST ends, the configuration held is the one it acquired, with the answer of
the clock lookup in it. -/
theorem orchInit_cfg {s t : State} (h : exec .orchInit s = .next t) :
    ∃ c k, acquire s.params.family s.desc = some c ∧ t.cfg = some { c with adjClk := k } := by
  have hC := configChange_sameRequest
  obtain ⟨_, h⟩ := hostOnly_eq_next.1 h
  unfold orchInit at h
  split at h
  · cases h
  · split at h
    · cases h
    · rename_i c hc
      have hend : ∀ u : State,
          (Res.done { u with result := .programmed }).All (KeepsSetup SameRequest u) :=
        fun _ => hC.same rfl rfl rfl rfl rfl
      have hrun := hC.settle (hC.steady.andThen (hC.configure (c := c) rfl) (fun u _ => hend u)) h
      obtain ⟨k, hk⟩ := hrun.cfg c rfl
      exact ⟨c, k, hc, hk⟩

/-- Settles O47: the configuration by `orchInit_cfg`, the strings by the table of modes. -/
theorem configurationIsTheDescriptions : Obligations.ConfigurationIsTheDescriptions := by
  refine ⟨fun s t h => ?_, fun text => ⟨?_, ?_, ?_, ?_, ?_, fun x hx => phyModeOf_eq_other hx⟩⟩
  · obtain ⟨c, k, hc, ht⟩ := orchInit_cfg h
    obtain rfl := acquire_eq_some hc
    exact ⟨_, ht, rfl, rfl, rfl, rfl⟩
  all_goals
    rw [phyModeOf_eq_iff (by simp)]
    simp [modeNames]
    tauto

end Sys2Proof.Machine

/-! # The state family (10_state.md): power-on, what a step fetches and refuses, the invariant, and what
the operations leave of the position, the parents' rates and the undescribed bits -/

namespace Sys2Proof.Machine

/-! ## Power-on (R32, R33, R43) -/

/-- Settles O60. -/
theorem powerOnState : Obligations.PowerOnState :=
  ⟨fun _ _ _ _ _ _ _ _ _ => ⟨rfl, rfl, rfl, rfl, rfl, rfl, rfl⟩, _, _, _, _, _, _, _, _, _, rfl⟩

/-- The rates are the one part of the invariant that power-on leaves open: there is no chain, no
configuration and no rate set under way, and the result is idle. -/
theorem powerOn_inv {params : Params} {r0 r1 : Word} {p0 p1 : Rat} {a b : Bool} {desc : Description}
    {e : Env} (h0 : 0 < p0) (h1 : 0 < p1) : Inv (State.powerOn params r0 r1 p0 p1 a b desc e) where
  p0_pos := h0
  p1_pos := h1
  parents_run := nofun
  all_stages h := absurd rfl h
  not_running := nofun
  stopped_failed := nofun
  cfg_acquired := nofun
  job_ok := nofun

/-- Settles O58. -/
theorem powerOnHasTheInvariant : Obligations.PowerOnHasTheInvariant :=
  ⟨fun _ _ _ _ _ _ _ _ _ h0 h1 => powerOn_inv h0 h1, powerOn_inv (by norm_num) (by norm_num)⟩

/-! ## What a step fetches, runs and refuses (R42, R46, R47, R103, R131) -/

theorem fetch_host {s : State} (h : s.nextTurn = .host) : s.fetch = s.hostProg[s.pos]? := by
  simp [State.fetch, h]

theorem fetch_datapath {s : State} (h : s.nextTurn = .datapath) : s.fetch = s.dpQueue.head? := by
  simp [State.fetch, h]

theorem issue_host {s : State} (h : s.nextTurn = .host) :
    s.issue = { s with agent := .host, sched := s.sched.tail } := by
  simp [State.issue, h]

theorem issue_datapath {s : State} (h : s.nextTurn = .datapath) :
    s.issue = { s with
      agent := .datapath
      sched := s.sched.tail
      dpQueue := s.dpQueue.tail } := by
  simp [State.issue, h]

/-- DATAPATH issues a request only with no rate set under way (R55; log 17). -/
theorem dpJob_of_nextTurn {s : State} (h : s.nextTurn = .datapath) : s.dpJob = [] := by
  unfold State.nextTurn at h
  split at h
  · cases h
  · by_contra hj
    simp [hj] at h
  · cases h
  · cases h

/-- A fetched word decides the step: the operation it decodes to, or the refusal. -/
theorem step_of_fetch {s : State} {w : OpWord} (hgo : s.nextTurn = .host → s.stopped = false)
    (hf : s.fetch = some w) :
    (∀ i, decode w = .ok i → step s = exec i s.issue) ∧
      ∀ e, decode w = .error e → step s = .refused (.undecodable e) := by
  cases hn : s.nextTurn with
  | host => constructor <;> intro _ hd <;> simp [step, hn, hgo hn, hf, hd]
  | datapath => constructor <;> intro _ hd <;> simp [step, hn, hf, hd]
  | other x => simp [State.fetch, hn] at hf

/-- Settles O7. -/
theorem stepRunsDecodedOperation : Obligations.StepRunsDecodedOperation := by
  intro s w i hgo hf hd
  refine ⟨(step_of_fetch hgo hf).1 i hd, fun hn => ⟨fetch_host hn ▸ hf, issue_host hn⟩, fun hn => ?_⟩
  have hhead : s.dpQueue.head? = some w := fetch_datapath hn ▸ hf
  exact ⟨List.eq_cons_of_mem_head? hhead, dpJob_of_nextTurn hn, issue_datapath hn⟩

theorem step_listStopped {s : State} (hn : s.nextTurn = .host) (hs : s.stopped = true) :
    step s = .refused .listStopped := by
  simp [step, hn, hs]

theorem step_endOfList {s : State} (hn : s.nextTurn = .host) (hs : s.stopped = false)
    (hl : s.hostProg.length ≤ s.pos) : step s = .refused .endOfList := by
  have hf : s.fetch = none := by rw [fetch_host hn]; exact List.getElem?_eq_none hl
  simp [step, hn, hs, hf]

/-- A bus access wrong in width or in offset decodes to nothing; the width is tested first (log 41). -/
theorem decode_bus_error {off width : Nat} (data : Word) (h : width ≠ 32 ∨ (off ≠ 0 ∧ off ≠ 4)) :
    decode (.busRead off width) = .error (if width ≠ 32 then .badWidth width else .badOffset off) ∧
      decode (.busWrite off width data) =
        .error (if width ≠ 32 then .badWidth width else .badOffset off) := by
  by_cases hw : width = 32
  · obtain ⟨h0, h4⟩ := h.resolve_left (not_not.2 hw)
    simp [decode, hw, h0, h4]
  · simp [decode, hw]

/-- Settles O8. -/
theorem stepsRefusedByName : Obligations.StepsRefusedByName :=
  ⟨fun _ => step_listStopped, fun _ => step_endOfList,
    fun _ _ e hgo hf hd => (step_of_fetch hgo hf).2 e hd, fun _ _ data h => decode_bus_error data h⟩

/-! ## Relations that do not look at the handles

Most elementary moves touch only the chain's handle, the other handles, the configuration, the
temporaries, the log and the draws. A relation that looks at none of these is kept by every move as soon
as it is kept by a gap and by the masked writes. -/

/-- Everything but the handles, the configuration, the temporaries, the log and the draws is as it was;
of the environment, the script of the gaps too. -/
def HandleFrame (s t : State) : Prop :=
  t = { s with
    run0 := t.run0
    run1 := t.run1
    adjEnabled := t.adjEnabled
    chain := t.chain
    stages := t.stages
    par0Held := t.par0Held
    par1Held := t.par1Held
    adjHeld := t.adjHeld
    cfg := t.cfg
    t := t.t
    rate := t.rate
    dpT := t.dpT
    dpRate := t.dpRate
    txns := t.txns
    env := { t.env with gaps := s.env.gaps, nGap := s.env.nGap } }

theorem Moves.of_handleFrame {R : State → State → Prop} {F : Family → Prop} (hR : Steady R)
    (hframe : ∀ s t, HandleFrame s t → R s t) (hgap : ∀ u, R u (u.gap 0))
    (hwrite : ∀ u held m v, m ∈ controlMasks ∨ (∃ f, F f ∧ m = modeMask f) → R u (u.mwHeld held m v)) :
    Moves R F where
  toSteady := hR
  popFail _ := hframe _ _ rfl
  popLookup _ := hframe _ _ rfl
  popRate _ := hframe _ _ rfl
  popAdj _ := hframe _ _ rfl
  readEth0 _ := hframe _ _ rfl
  readEth1 _ := hframe _ _ rfl
  setRate _ _ := hframe _ _ rfl
  gap := hgap
  control u held m v hm := hwrite u held m v (.inl hm)
  modeField u f v hf := hwrite u 0 _ v (.inr ⟨f, hf, rfl⟩)
  par0 _ := hframe _ _ rfl
  par1 _ := hframe _ _ rfl
  stage _ _ := hframe _ _ rfl
  chainBuilt _ _ := hframe _ _ rfl
  openGate u _ := by
    have hrun : R u { u with run0 := true, run1 := true } := hframe _ _ rfl
    have hgate := hwrite { u with run0 := true, run1 := true } 0 gateM 0x00000400
      (.inl (by simp [controlMasks]))
    exact hR.trans _ _ _ hrun (hR.trans _ _ _ hgate (hframe _ _ rfl))
  count _ _ _ := hframe _ _ rfl
  disable u n _ := by
    unfold State.disableTo
    split
    · have hcount : R u { u with chain := .built 0 } := hframe _ _ rfl
      have hgate := hwrite { u with chain := .built 0 } 0 gateM 0 (.inl (by simp [controlMasks]))
      exact hR.trans _ _ _ hcount (hR.trans _ _ _ hgate (hframe _ _ rfl))
    · exact hframe _ _ rfl
  unregister _ := hframe _ _ rfl
  adjClock _ _ := hframe _ _ rfl
  config _ _ _ _ := hframe _ _ rfl
  adjHandle _ := hframe _ _ rfl

/-- The release drops the chain, if there is one, then lets go of the handles (R132). -/
theorem Moves.releaseResources {R : State → State → Prop} {F : Family → Prop} (hM : Moves R F)
    (hdrop : ∀ u : State, R u { u with
      par0Held := false
      par1Held := false
      adjHeld := false
      adjEnabled := false }) (s : State) : R s s.releaseResources := by
  unfold State.releaseResources
  split
  · rename_i n hn
    exact hM.trans _ _ _ (hM.dropChain hM.gap hM.disable hM.unregister n s hn) (hdrop _)
  · rename_i hn
    have hstages := hM.unregister s
    rw [← hn] at hstages
    exact hM.trans _ _ _ hstages (hdrop _)

/-! ## What an operation leaves of HOST's list and of the run's outcome (R40, R42, R131) -/

/-- HOST's position, whether its list is stopped, and the agent at work are as they were. -/
structure SameList (s t : State) : Prop where
  pos : t.pos = s.pos
  stopped : t.stopped = s.stopped
  agent : t.agent = s.agent

/-- And so is the result. -/
structure SameRun (s t : State) : Prop extends SameList s t where
  result : t.result = s.result

theorem sameRun_steady : Steady SameRun where
  refl _ := ⟨⟨rfl, rfl, rfl⟩, rfl⟩
  trans _ _ _ h k := ⟨⟨k.pos.trans h.pos, k.stopped.trans h.stopped, k.agent.trans h.agent⟩,
    k.result.trans h.result⟩

/-- What runs inside an operation, other agents included, moves neither HOST's list nor the outcome. -/
theorem sameRun_moves : Moves SameRun (fun _ => True) := by
  refine .of_handleFrame sameRun_steady (fun s t h => ?_) (fun u => ?_) (fun u held m v _ => ?_)
  · unfold HandleFrame at h
    rw [h]
    exact ⟨⟨rfl, rfl, rfl⟩, rfl⟩
  · exact ⟨⟨gap_pos 0 u, gap_stopped 0 u, gap_agent 0 u⟩, gap_result 0 u⟩
  · exact ⟨⟨mwHeld_pos held m v u, mwHeld_stopped held m v u, mwHeld_agent held m v u⟩,
      mwHeld_result held m v u⟩

theorem sameRun_rates : KeepsRates SameRun := fun _ _ _ => ⟨⟨rfl, rfl, rfl⟩, rfl⟩

theorem opOf_sameRun {i : Instr} (hi : i ≠ .orchInit) (s : State) : (opOf i s).All (SameRun s) :=
  sameRun_moves.opOf i s (fun _ => sameRun_rates) (fun h => absurd h hi)
    ⟨fun _ _ => ⟨⟨rfl, rfl, rfl⟩, rfl⟩,
      fun _ m v => ⟨⟨mwEth0_pos s m v, mwEth0_stopped s m v, mwEth0_agent s m v⟩,
        mwEth0_result s m v⟩⟩
    trivial (fun _ _ => trivial)

theorem configure_sameRun {c : Cfg} {s : State} (hs : s.cfg = some c) :
    (configure c s).All (SameRun s) :=
  sameRun_moves.configure sameRun_moves.popAdj sameRun_moves.adjHandle sameRun_moves.chainBuild c
    (fun u a h => sameRun_moves.config u c a h) (fun u => sameRun_moves.phyMode _ _ trivial u)
    (fun u => sameRun_moves.timing sameRun_rates _ _ _ u) s hs

/-- How an operation issued in `s` ends, for HOST's list and the run's outcome. It completes, with the
result as it was or, by an ORCH.INIT from idle, Programmed (R122); or its raise is taken, and where that
is DATAPATH's the result is as it was (R140). -/
inductive EndsRun (s : State) : State → Prop
  | completed (u : State) (list : SameList s u)
      (result : u.result = s.result ∨ s.result = .idle ∧ u.result = .programmed) :
      EndsRun s u.complete
  | raised (kind : ErrKind) (stage : Stage) (u : State) (list : SameList s u)
      (result : u.result = s.result ∨ s.agent = .host) :
      EndsRun s (u.takeRaise kind stage)

/-- The `running` inside an ORCH.INIT is seen by nobody: it ends Programmed, or in a raise of HOST
(R122). -/
theorem orchInit_endsRun {s t : State} (ha : s.agent = .host) (h : (orchInit s).settle = .next t) :
    EndsRun s t := by
  unfold orchInit at h
  split at h
  · cases h
  · rename_i hidle
    have hidle : s.result = .idle := by simpa using hidle
    split at h
    · cases h
    · rename_i c _
      have hrun := configure_sameRun (c := c) (s := { s with result := .running, cfg := some c }) rfl
      rcases settle_eq_next.1 h with ⟨u, hu, rfl⟩ | ⟨k, g, u, hu, rfl⟩
      · obtain ⟨v, hv, hu⟩ := andThen_eq_done.1 hu
        cases hu
        rw [hv] at hrun
        exact .completed _ ⟨hrun.pos, hrun.stopped, hrun.agent⟩ (.inr ⟨hidle, rfl⟩)
      · rcases andThen_eq_raised.1 hu with hv | ⟨v, _, hv⟩
        · rw [hv] at hrun
          exact .raised k g u ⟨hrun.pos, hrun.stopped, hrun.agent⟩ (.inr ha)
        · cases hv

theorem exec_endsRun {i : Instr} {s t : State} (h : exec i s = .next t) (hi : i ≠ .orchRelease) :
    EndsRun s t := by
  by_cases hinit : i = .orchInit
  · subst hinit
    obtain ⟨ha, h⟩ := hostOnly_eq_next.1 h
    exact orchInit_endsRun ha h
  · obtain ⟨u, hu, rfl | ⟨k, g, rfl⟩⟩ := settle_all (opOf_sameRun hinit s) (exec_next h hi).1
    · exact .completed u hu.toSameList (.inl hu.result)
    · exact .raised k g u hu.toSameList (.inl hu.result)

/-- Settles O11: a completed operation advances, a raise stops the list, the release starts it over. -/
theorem hostOperationsAdvanceOrRaise : Obligations.HostOperationsAdvanceOrRaise := by
  intro i s t ha h
  by_cases hi : i = .orchRelease
  · subst hi
    obtain ⟨_, _, rfl⟩ := execOrchRelease_next h
    exact .inr (.inr ⟨rfl, rfl, rfl, rfl⟩)
  · cases exec_endsRun h hi with
    | completed u hu _ =>
      rw [complete_host (hu.agent.trans ha)]
      exact .inl ⟨hi, congrArg (· + 1) hu.pos, hu.stopped⟩
    | raised k g u hu _ =>
      rw [takeRaise_host (hu.agent.trans ha)]
      exact .inr (.inl ⟨hi, hu.pos, rfl, k, g, rfl⟩)

/-! ## The invariant (R33, R38, R88, R97, R119, R131)

The invariant has two parts. What it says of the clocks, the configuration and DATAPATH's rate set is kept
by every elementary move; what it says of the outcome does not hold inside an ORCH.INIT, and is read off
the ends of an operation. -/

/-- The part of the invariant that holds inside an operation too. -/
def BlockInv (s : State) : Prop :=
  (0 < s.p0 ∧ 0 < s.p1) ∧
  (s.chain.enabled = true → s.run0 = true ∧ s.run1 = true) ∧
  (s.chain ≠ .none → ∀ n, n ∈ s.stages) ∧
  (∀ c, s.cfg = some c → c.family = s.params.family ∧ ∃ text, c.mode = phyModeOf text) ∧
  ∀ m, m ∈ s.dpJob → m.ok

/-- The part about the run's outcome. -/
def RunInv (s : State) : Prop :=
  s.result ≠ .running ∧ (s.stopped = true → ∃ kind stage, s.result = .failed kind stage)

theorem inv_iff {s : State} : Inv s ↔ BlockInv s ∧ RunInv s :=
  ⟨fun h => ⟨⟨⟨h.p0_pos, h.p1_pos⟩, h.parents_run, h.all_stages, h.cfg_acquired, h.job_ok⟩,
      h.not_running, h.stopped_failed⟩,
    fun ⟨⟨⟨h0, h1⟩, hrun, hst, hcfg, hjob⟩, hres, hstop⟩ => ⟨h0, h1, hrun, hst, hres, hstop, hcfg, hjob⟩⟩

/-- The relation that an operation's moves keep. -/
def KeepsBlockInv (s t : State) : Prop := BlockInv s → BlockInv t

theorem keepsBlockInv_steady : Steady KeepsBlockInv where
  refl _ := id
  trans _ _ _ h k := k ∘ h

/-- A masked write and what other agents do reach of the invariant only the rates and the rate set under
way. -/
theorem keepsBlockInv_of_mwFrame {s t : State} (h : MwFrame s t) (k : KeepsDpInv s t) :
    KeepsBlockInv s t := by
  rintro ⟨⟨h0, h1⟩, hrun, hst, hcfg, hjob⟩
  unfold MwFrame at h
  refine ⟨⟨k.p0 h0, k.p1 h1⟩, ?_, ?_, ?_, k.job hjob⟩
  · rw [h]; exact hrun
  · rw [h]; exact hst
  · rw [h]; exact hcfg

theorem keepsBlockInv_mwHeld (held m v : Word) (s : State) : KeepsBlockInv s (s.mwHeld held m v) :=
  keepsBlockInv_of_mwFrame (mwHeld_spec held m v s).1 (mwHeld_spec held m v s).2

/-- A change of the count that leaves a chain built keeps the stages; what it needs besides is that the
parents run where the new count is positive (R88, R101, R102). -/
theorem keepsBlockInv_count {s : State} {n m : Nat} (hn : s.chain = .built n)
    (hm : m = 0 ∨ 0 < n) : KeepsBlockInv s { s with chain := .built m } := by
  rintro ⟨hp, hrun, hst, hcfg, hjob⟩
  refine ⟨hp, fun he => hrun ?_, fun _ => hst (by simp [hn]), hcfg, hjob⟩
  have hpos : 0 < m := by simpa [Chain.enabled] using he
  simp only [hn, Chain.enabled, decide_eq_true_eq]
  omega

/-- The first enable has the parents run (R88, R101). -/
theorem keepsBlockInv_openGate {s : State} (h : s.chain = .built 0) :
    KeepsBlockInv s { s.openGate with chain := .built 1 } := by
  rintro ⟨hp, _, hst, hcfg, hjob⟩
  have hopen : BlockInv { s with run0 := true, run1 := true } :=
    ⟨hp, fun _ => ⟨rfl, rfl⟩, hst, hcfg, hjob⟩
  obtain ⟨hp', _, hst', hcfg', hjob'⟩ := keepsBlockInv_mwHeld 0 gateM 0x00000400 _ hopen
  refine ⟨hp', fun _ => ?_, fun _ => hst' ?_, hcfg', hjob'⟩
  · exact ⟨mwHeld_run0 0 gateM 0x00000400 _, mwHeld_run1 0 gateM 0x00000400 _⟩
  · rw [mwHeld_chain]
    simp [h]

/-- A disable: the last one lets go of the parents, with the chain no longer enabled (R88, R102). -/
theorem keepsBlockInv_disableTo {s : State} {n : Nat} (h : s.chain = .built (n + 1)) :
    KeepsBlockInv s (s.disableTo n) := by
  unfold State.disableTo
  split
  · intro hs
    have hcount := keepsBlockInv_count h (m := 0) (.inl rfl) hs
    obtain ⟨hp, _, hst, hcfg, hjob⟩ := keepsBlockInv_mwHeld 0 gateM 0 _ hcount
    refine ⟨hp, fun he => ?_, hst, hcfg, hjob⟩
    rw [releaseParents_chain, mwEth0_chain] at he
    cases he
  · exact keepsBlockInv_count h (.inr (Nat.succ_pos n))

/-- Every elementary move keeps the clocks', the configuration's and the rate set's part. -/
theorem keepsBlockInv_moves : Moves KeepsBlockInv (fun _ => True) where
  toSteady := keepsBlockInv_steady
  popFail _ := id
  popLookup _ := id
  popRate _ := id
  popAdj _ := id
  readEth0 _ := id
  readEth1 _ := id
  setRate _ _ := id
  gap u := keepsBlockInv_of_mwFrame (gap_spec 0 u).1.mwFrame (gap_spec 0 u).2
  control u held m v _ := keepsBlockInv_mwHeld held m v u
  modeField u f v _ := keepsBlockInv_mwHeld 0 (modeMask f) v u
  par0 _ := id
  par1 _ := id
  stage := by
    rintro u n ⟨hp, hrun, hst, hcfg, hjob⟩
    exact ⟨hp, hrun, fun hc m => mem_withStage.2 (.inl (hst hc m)), hcfg, hjob⟩
  chainBuilt := by
    rintro u hall ⟨hp, _, _, hcfg, hjob⟩
    exact ⟨hp, nofun, fun _ => hall, hcfg, hjob⟩
  openGate _ h := keepsBlockInv_openGate h
  count _ n h := keepsBlockInv_count h (.inr (Nat.succ_pos n))
  disable _ _ h := keepsBlockInv_disableTo h
  unregister := by
    rintro u ⟨hp, _, _, hcfg, hjob⟩
    exact ⟨hp, nofun, fun hc => absurd rfl hc, hcfg, hjob⟩
  adjClock _ _ := id
  config := by
    rintro u c a h ⟨hp, hrun, hst, hcfg, hjob⟩
    refine ⟨hp, hrun, hst, fun c' hc' => ?_, hjob⟩
    cases hc'
    exact hcfg c h
  adjHandle _ := id

theorem keepsBlockInv_rates : KeepsRates KeepsBlockInv := by
  rintro u a b ⟨⟨h0, h1⟩, hrest⟩
  exact ⟨⟨newRate_pos h0 a, newRate_pos h1 b⟩, hrest⟩

/-- The configuration ORCH.INIT acquires is of the instance's family and of the description's string
(R119). -/
theorem keepsBlockInv_run : KeepsRun KeepsBlockInv := by
  refine ⟨?_, fun _ => id⟩
  rintro u c _ hacq ⟨hp, hrun, hst, _, hjob⟩
  refine ⟨hp, hrun, hst, fun c' hc' => ?_, hjob⟩
  cases hc'
  exact ⟨acquire_family hacq, _, acquire_mode hacq⟩

theorem exec_keepsBlockInv {i : Instr} {s t : State} (h : exec i s = .next t) : KeepsBlockInv s t := by
  by_cases hi : i = .orchRelease
  · subst hi
    obtain ⟨_, _, rfl⟩ := execOrchRelease_next h
    exact keepsBlockInv_moves.releaseResources (fun _ => id) s
  · have hop := keepsBlockInv_moves.opOf i s (fun _ => keepsBlockInv_rates) (fun _ => keepsBlockInv_run)
      ⟨fun _ _ => id, fun _ m v => keepsBlockInv_mwHeld 0 m v s⟩ trivial (fun _ _ => trivial)
    obtain ⟨u, hu, rfl | ⟨k, g, rfl⟩⟩ := settle_all hop (exec_next h hi).1
    · exact hu
    · exact hu

/-- An operation that completes leaves the result as it was, or Programmed; a raise of HOST leaves
Failed, and one of DATAPATH, which issues no ORCH.INIT, the result as it was. -/
theorem exec_keepsRunInv {i : Instr} {s t : State} (h : exec i s = .next t) (hs : RunInv s) :
    RunInv t := by
  by_cases hi : i = .orchRelease
  · subst hi
    obtain ⟨_, _, rfl⟩ := execOrchRelease_next h
    exact ⟨nofun, nofun⟩
  · obtain ⟨hres, hstop⟩ := hs
    have hsame : ∀ u : State, u.stopped = s.stopped → u.result = s.result → RunInv u := by
      intro u hus hur
      exact ⟨hur ▸ hres, fun hu => hur ▸ hstop (hus ▸ hu)⟩
    have hidle : s.result = .idle → s.stopped ≠ true := by
      intro hid hst
      obtain ⟨k, g, hf⟩ := hstop hst
      exact absurd (hid.symm.trans hf) nofun
    cases exec_endsRun h hi with
    | completed u hu hr =>
      rcases hr with hr | ⟨hid, hr⟩
      · exact hsame _ hu.stopped hr
      · refine ⟨fun hrun => ?_, fun hst => absurd (hu.stopped.symm.trans hst) (hidle hid)⟩
        exact absurd (hr.symm.trans hrun) nofun
    | raised k g u hu hr =>
      cases ha : u.agent with
      | host =>
        rw [takeRaise_host ha]
        exact ⟨nofun, fun _ => ⟨k, g, rfl⟩⟩
      | datapath =>
        have hdp : s.agent ≠ .host := by simp [← hu.agent, ha]
        exact hsame _ (by simp [ha, hu.stopped]) (by simp [ha, hr.resolve_right hdp])

theorem issue_inv {s : State} (h : Inv s) : Inv s.issue := by
  rw [inv_iff] at *
  unfold State.issue
  split <;> exact h

/-- A transaction of another agent between two operations (R54, R55). -/
theorem intrude_inv {s : State} (h : Inv s) (x : Intrusion) : Inv (s.intrude 0 x) := by
  obtain ⟨hframe, hdp⟩ := intrude_spec 0 s x
  obtain ⟨hblock, hrun⟩ := inv_iff.1 h
  refine inv_iff.2 ⟨keepsBlockInv_of_mwFrame hframe.mwFrame hdp hblock, ?_⟩
  unfold OthersFrame at hframe
  rw [hframe]
  exact hrun

/-- Settles O57. -/
theorem stepsKeepTheInvariant : Obligations.StepsKeepTheInvariant := by
  intro s t hs h
  have hissue := issue_inv hs
  rcases step_eq_next h with ⟨x, rfl⟩ | ⟨_, _, _, _, he⟩
  · exact intrude_inv hissue x
  · obtain ⟨hblock, hrun⟩ := inv_iff.1 hissue
    exact inv_iff.2 ⟨exec_keepsBlockInv he hblock, exec_keepsRunInv he hrun⟩

/-! ## What operations keep alone on the bus: bits of PRG_ETH0 and the parents' rates (R20, R53, R99) -/

/-- Alone on the bus, the bits `k` of PRG_ETH0 are as they were, and so are the parents' rates where `fixed`
holds; and nobody else comes onto the bus. -/
def KeepsAlone (k : Word) (fixed : Prop) (s t : State) : Prop :=
  ExclusiveInit s →
    ExclusiveInit t ∧ t.reg0 &&& k = s.reg0 &&& k ∧ (fixed → t.p0 = s.p0 ∧ t.p1 = s.p1)

section
variable {k : Word} {fixed : Prop}

theorem keepsAlone_steady : Steady (KeepsAlone k fixed) where
  refl _ h := ⟨h, rfl, fun _ => ⟨rfl, rfl⟩⟩
  trans _ _ _ h h' hs := by
    obtain ⟨hu, hreg, hrate⟩ := h hs
    obtain ⟨ht, hreg', hrate'⟩ := h' hu
    exact ⟨ht, hreg'.trans hreg, fun hf => ⟨(hrate' hf).1.trans (hrate hf).1,
      (hrate' hf).2.trans (hrate hf).2⟩⟩

theorem keepsAlone_of_handleFrame {s t : State} (h : HandleFrame s t) : KeepsAlone k fixed s t := by
  intro hs
  unfold HandleFrame at h
  rw [h]
  exact ⟨⟨hs.1, hs.2⟩, rfl, fun _ => ⟨rfl, rfl⟩⟩

theorem keepsAlone_gap (held : Word) (s : State) : KeepsAlone k fixed s (s.gap held) := by
  intro hs
  refine ⟨exclusive_gap hs held, ?_⟩
  rw [gap_alone (hs.1 0)]
  exact ⟨rfl, fun _ => ⟨rfl, rfl⟩⟩

/-- A masked write whose mask does not meet the bits. -/
theorem keepsAlone_mwHeld {m : Word} (hm : m &&& k = 0) (held v : Word) (s : State) :
    KeepsAlone k fixed s (s.mwHeld held m v) := by
  intro hs
  refine ⟨exclusive_mwHeld hs held m v, ?_⟩
  rw [mwHeld_exclusive hs]
  exact ⟨merge_keeps hm, fun _ => ⟨rfl, rfl⟩⟩

theorem keepsAlone_moves (hk : ∀ m ∈ controlMasks, m &&& k = 0) :
    Moves (KeepsAlone k fixed) (fun f => modeMask f &&& k = 0) := by
  refine .of_handleFrame keepsAlone_steady (fun _ _ => keepsAlone_of_handleFrame)
    (keepsAlone_gap 0) (fun u held m v hm => ?_)
  rcases hm with hm | ⟨f, hf, rfl⟩
  · exact keepsAlone_mwHeld (hk m hm) held v u
  · exact keepsAlone_mwHeld hf held v u

end

/-- The operations that write a word of the program's own to PRG_ETH0 (R82, R85). -/
def IsRawWrite (i : Instr) : Prop := (∃ v, i = .wrEth0 v) ∨ ∃ off m v, i = .mw off m v

/-- Alone on the bus, an operation keeps the bits that no field it may write meets, and the parents' rates
unless it makes a rate request. A raw write meets any bit. -/
theorem exec_keepsAlone {i : Instr} {s t : State} {k : Word} (h : exec i s = .next t)
    (hk : ∀ m ∈ controlMasks, m &&& k = 0) (hraw : IsRawWrite i → k = 0)
    (hpar : modeMask s.params.family &&& k = 0)
    (hcfg : ∀ c, s.cfg = some c → modeMask c.family &&& k = 0) :
    KeepsAlone k (¬ MakesRateRequest i) s t := by
  have hM := keepsAlone_moves (fixed := ¬ MakesRateRequest i) hk
  by_cases hi : i = .orchRelease
  · subst hi
    obtain ⟨_, _, rfl⟩ := execOrchRelease_next h
    exact hM.releaseResources (fun _ => keepsAlone_of_handleFrame rfl) s
  · have hrates : MakesRateRequest i → KeepsRates (KeepsAlone k (¬ MakesRateRequest i)) :=
      fun hr _ _ _ hs => ⟨hs, rfl, fun hn => absurd hr hn⟩
    have hrun : KeepsRun (KeepsAlone k (¬ MakesRateRequest i)) :=
      ⟨fun _ _ _ _ hs => ⟨hs, rfl, fun _ => ⟨rfl, rfl⟩⟩, fun _ hs => ⟨hs, rfl, fun _ => ⟨rfl, rfl⟩⟩⟩
    have hop := hM.opOf i s hrates (fun _ => hrun)
      ⟨fun hw v hs => ⟨hs, by simp [hraw (.inl hw)], fun _ => ⟨rfl, rfl⟩⟩,
        fun hw m v => keepsAlone_mwHeld (by simp [hraw (.inr hw)]) 0 v s⟩ hpar hcfg
    obtain ⟨u, hu, rfl | ⟨kind, g, rfl⟩⟩ := settle_all hop (exec_next h hi).1
    · exact hu
    · exact hu

/-- No control field has bit 3 or bits [31:25], and none has bits [2:1] (R63, R64). -/
theorem controlMasks_undescribed :
    ∀ m ∈ controlMasks, m &&& 0xFE000008 = 0 ∧ m &&& 0x00000006 = 0 := by
  simp [controlMasks, selM, txdlyM, divM, gateM, invM, refM, adjEnM, adjSetupM, rxdlyM, adjDelayM,
    adjSkewM, DelayMask.word]

/-- Settles O54: no field of either family meets bit 3 or bits [31:25], none of Legacy bits [2:1]. -/
theorem undescribedBitsAreKept : Obligations.UndescribedBitsAreKept := by
  intro i s t hs h hwr hmw
  have hraw : ∀ k : Word, IsRawWrite i → k = 0 := by
    rintro k (⟨v, rfl⟩ | ⟨off, m, v, rfl⟩)
    · exact absurd rfl (hwr v)
    · exact absurd rfl (hmw off m v)
  have hmode : ∀ f, modeMask f &&& 0xFE000008 = 0 := by
    intro f
    cases f <;> rfl
  constructor
  · obtain ⟨_, hkept, _⟩ := exec_keepsAlone h (fun m hm => (controlMasks_undescribed m hm).1)
      (hraw _) (hmode _) (fun _ _ => hmode _) hs
    exact hkept
  · intro hpar hcfg
    obtain ⟨_, hkept, _⟩ := exec_keepsAlone h (fun m hm => (controlMasks_undescribed m hm).2)
      (hraw _) (by rw [hpar]; rfl) (fun c hc => by rw [hcfg c hc]; rfl) hs
    exact hkept

/-- Settles O55: `exec_keepsAlone` with no bits asked for, so that raw writes are in it too. -/
theorem parentRatesChangeOnlyByRateRequests : Obligations.ParentRatesChangeOnlyByRateRequests := by
  intro i s t hs h hchange
  show MakesRateRequest i
  by_contra hno
  obtain ⟨_, _, hrates⟩ := exec_keepsAlone (k := 0) h (fun _ _ => BitVec.and_zero)
    (fun _ => rfl) BitVec.and_zero (fun _ _ => BitVec.and_zero) hs
  obtain ⟨h0, h1⟩ := hrates hno
  exact hchange.elim (fun h => h h0) (fun h => h h1)

/-! ## Field rows as operations (R66 to R73; log 10, 11) -/

/-- Under the mask a merge holds the value. -/
theorem merge_and_mask (t m v : Word) : merge t m v &&& m = v &&& m := by
  apply BitVec.eq_of_getElem_eq
  intro i hi
  cases hm : m[i] <;> simp [hm]

/-- A field that a masked write covers reads back the value's field. -/
theorem fieldGet_merge (t m v : Word) (lo : Nat) : fieldGet m lo (merge t m v) = fieldGet m lo v := by
  simp [fieldGet, merge_and_mask]

/-- A bit under the mask is the value's bit. -/
theorem merge_getLsbD_of_mask (t v : Word) {m : Word} {i : Nat} (h : m.getLsbD i = true) :
    (merge t m v).getLsbD i = v.getLsbD i := by
  have hi : i < 32 := BitVec.lt_of_getLsbD h
  rw [BitVec.getLsbD_eq_getElem hi] at h
  simp [BitVec.getLsbD_eq_getElem hi, h]

/-- Alone, a row of the instance is its masked write (R76, R85). -/
theorem fieldWrite_alone {s : State} (h : HostAlone s) {f : Option Family}
    (hf : rowOfInstance s f = true) (m v : Word) :
    fieldWrite f m v s = .next (s.afterMw m v).advance := by
  have ha : (s.afterMw m v).agent = .host := h.1
  rw [fieldWrite, hostOnly_host h.1, if_pos hf, mwEth0_alone h, ← complete_host ha]
  rfl

/-- A row of the other family is refused, alone on the bus or not (R15, R75). -/
theorem fieldWrite_otherFamily {s : State} (ha : s.agent = .host) {f : Family} (hf : s.params.family ≠ f)
    (m v : Word) : fieldWrite (some f) m v s = .refused .fieldOfOtherFamily := by
  have hrow : rowOfInstance s (some f) = false := by simpa [rowOfInstance] using hf
  rw [fieldWrite, hostOnly_host ha, hrow]
  rfl

theorem phyIf_afterMw_legacy {s : State} (h : s.params.family = .legacy) (v : Word) :
    (s.afterMw rgmiiModeM v).outputs.phyIf = if v.getLsbD 0 then .rgmii else .rmii := by
  show phyIf s.params.family (merge s.reg0 rgmiiModeM v) = _
  rw [h, phyIf, merge_getLsbD_of_mask _ _ (by rfl)]

theorem phyIf_afterMw_rgmii {s : State} (h : s.params.family = .extMode) :
    (s.afterMw extPhyModeM 0x1).outputs.phyIf = .rgmii := by
  show phyIf s.params.family (merge s.reg0 extPhyModeM 0x1) = _
  rw [h, phyIf, merge_and_mask]
  rfl

theorem phyIf_afterMw_rmii {s : State} (h : s.params.family = .extMode) :
    (s.afterMw extPhyModeM 0x4).outputs.phyIf = .rmii := by
  show phyIf s.params.family (merge s.reg0 extPhyModeM 0x4) = _
  rw [h, phyIf, merge_and_mask]
  rfl

/-- Settles O19. -/
theorem modeRowsSelectInterface : Obligations.ModeRowsSelectInterface := by
  refine ⟨fun s h => ⟨fun hf => ?_, fun hf => ?_⟩, fun s ha => ⟨fun hf => ?_, fun hf => ?_⟩⟩
  · have hrow : rowOfInstance s (some .legacy) = true := by simp [rowOfInstance, hf]
    exact ⟨fieldWrite_alone h hrow _ _, fieldWrite_alone h hrow _ _, phyIf_afterMw_legacy hf _,
      phyIf_afterMw_legacy hf _⟩
  · have hrow : rowOfInstance s (some .extMode) = true := by simp [rowOfInstance, hf]
    exact ⟨fieldWrite_alone h hrow _ _, fieldWrite_alone h hrow _ _, phyIf_afterMw_rgmii hf,
      phyIf_afterMw_rmii hf⟩
  · have hother : s.params.family ≠ .legacy := by simp [hf]
    exact ⟨fieldWrite_otherFamily ha hother _ _, fieldWrite_otherFamily ha hother _ _⟩
  · have hother : s.params.family ≠ .extMode := by simp [hf]
    exact ⟨fieldWrite_otherFamily ha hother _ _, fieldWrite_otherFamily ha hother _ _⟩

/-- The TX delay is 2 ns for each step of the value's TXDLY field (R22, R69). -/
theorem txClkDelayNs_afterMw (s : State) (v : Word) :
    (s.afterMw txdlyM v).outputs.txClkDelayNs = 2 * (fieldGet txdlyM 5 v).toNat := by
  show 2 * (fieldGet txdlyM 5 (merge s.reg0 txdlyM v)).toNat = _
  rw [fieldGet_merge]

/-- With the gate bit 0 the TX clock output is stopped, whatever the chain (R92). -/
theorem rgmiiTxClk_stopped {s : State} (h : gateBit s.reg0 = false) :
    s.outputs.rgmiiTxClk = .stopped := by
  simp [State.outputs, State.freqOut, h]

/-- A bit of PRG_ETH0 that a masked write of HOST covers is the value's. -/
theorem afterMw_getLsbD (s : State) (v : Word) {m : Word} {i : Nat} (h : m.getLsbD i = true) :
    (s.afterMw m v).reg0.getLsbD i = v.getLsbD i :=
  merge_getLsbD_of_mask s.reg0 v h

theorem rxAdjDelay_afterMw (s : State) (v : Word) :
    (s.afterMw adjDelayM v).outputs.rxAdjDelay = (fieldGet adjDelayM 15 v).setWidth 5 := by
  show (fieldGet adjDelayM 15 (merge s.reg0 adjDelayM v)).setWidth 5 = _
  rw [fieldGet_merge]

theorem rxAdjSkew_afterMw (s : State) (v : Word) :
    (s.afterMw adjSkewM v).outputs.rxAdjSkew = (fieldGet adjSkewM 20 v).setWidth 5 := by
  show (fieldGet adjSkewM 20 (merge s.reg0 adjSkewM v)).setWidth 5 = _
  rw [fieldGet_merge]

/-- Settles O21: each row is its masked write, and its output is the value's field or bit. -/
theorem delayAndControlRowsSetTheirField : Obligations.DelayAndControlRowsSetTheirField := by
  intro s h
  have hrow : ∀ m v, fieldWrite none m v s = .next (s.afterMw m v).advance := fieldWrite_alone h rfl
  have hbit : ∀ (m v : Word) (i : Nat), m.getLsbD i = true →
      (s.afterMw m v).reg0.getLsbD i = v.getLsbD i := fun _ v _ hm => afterMw_getLsbD s v hm
  exact ⟨⟨hrow _ _, txClkDelayNs_afterMw s 0x00⟩, ⟨hrow _ _, txClkDelayNs_afterMw s 0x20⟩,
    ⟨hrow _ _, txClkDelayNs_afterMw s 0x40⟩, ⟨hrow _ _, txClkDelayNs_afterMw s 0x60⟩,
    ⟨hrow _ _, hbit gateM 0x400 10 rfl⟩, ⟨hrow _ _, rgmiiTxClk_stopped (hbit gateM 0 10 rfl)⟩,
    ⟨hrow _ _, hbit invM 0x800 11 rfl⟩, ⟨hrow _ _, hbit invM 0 11 rfl⟩,
    ⟨hrow _ _, hbit refM 0x1000 12 rfl⟩, ⟨hrow _ _, hbit refM 0 12 rfl⟩,
    ⟨hrow _ _, hbit adjEnM 0x2000 13 rfl⟩, ⟨hrow _ _, hbit adjEnM 0 13 rfl⟩,
    ⟨hrow _ _, hbit adjSetupM 0x4000 14 rfl⟩, ⟨hrow _ _, hbit adjSetupM 0 14 rfl⟩,
    ⟨hrow _ _, hbit rxdlyM 0x6000 13 rfl, hbit rxdlyM 0x6000 14 rfl⟩,
    ⟨hrow _ _, hbit rxdlyM 0 13 rfl, hbit rxdlyM 0 14 rfl⟩,
    ⟨hrow _ _, rxAdjDelay_afterMw s 0⟩, ⟨hrow _ _, rxAdjSkew_afterMw s 0⟩⟩

end Sys2Proof.Machine

/-! # The memory family (20_memory.md): single accesses, masked writes among other agents, DATAPATH's
moves between HOST's operations, and the sequences of HOST that complete whatever others do -/

namespace Sys2Proof.Machine

/-! ## An operation of HOST runs, and completes (R42, R134) -/

theorem exec_host {i : Instr} {s : State} (ha : s.agent = .host) (hi : i ≠ .orchRelease) :
    exec i s = (opOf i s).settle := by
  by_cases hw : ∃ v, i = .wrEth1 v
  · obtain ⟨v, rfl⟩ := hw
    rfl
  · rcases exec_eq i s (not_exists.1 hw) hi with he | ⟨node, _, he⟩
    · rw [he, hostOnly_host ha]
    · rw [he, rateRequest_host ha]

/-- Where the operation behind an instruction is done, the instruction completes. -/
theorem exec_host_done {i : Instr} {s u : State} (ha : s.agent = .host) (hi : i ≠ .orchRelease)
    (h : opOf i s = .done u) : exec i s = .next u.complete := by
  rw [exec_host ha hi, h]
  rfl

theorem exec_host_refused {i : Instr} {s : State} {r : Refusal} (ha : s.agent = .host)
    (hi : i ≠ .orchRelease) (h : opOf i s = .refused r) : exec i s = .refused r := by
  rw [exec_host ha hi, h]
  rfl

/-! ## Single accesses (R44, R45, R48, R49) -/

/-- What the outputs and the nodes' frequencies are functions of is as it was (R35, R36). -/
structure SameDrive (s t : State) : Prop where
  params : t.params = s.params
  reg0 : t.reg0 = s.reg0
  p0 : t.p0 = s.p0
  p1 : t.p1 = s.p1
  run0 : t.run0 = s.run0
  run1 : t.run1 = s.run1
  chain : t.chain = s.chain

theorem SameDrive.freqSel {s t : State} (h : SameDrive s t) : t.freqSel = s.freqSel := by
  unfold State.freqSel State.parentRuns
  rw [h.reg0, h.p0, h.p1, h.run0, h.run1, h.chain]

theorem SameDrive.nodeFreq {s t : State} (h : SameDrive s t) (n : Node) :
    t.nodeFreq n = s.nodeFreq n := by
  cases n <;> simp only [State.nodeFreq, State.freqOut, State.freqFixed, State.freqDiv, h.freqSel,
    h.reg0]

theorem SameDrive.outputs {s t : State} (h : SameDrive s t) : t.outputs = s.outputs := by
  have hout : t.freqOut = s.freqOut := h.nodeFreq .rgmiiTxEn
  simp only [State.outputs, hout, h.params, h.reg0]

/-- Settles O14. -/
theorem writeEth0ReplacesEveryBit : Obligations.WriteEth0ReplacesEveryBit := by
  intro s v ha
  refine ⟨_, exec_host_done ha nofun rfl, ?_, rfl, ?_⟩
  · rw [complete_host (s := s.writeEth0 v) ha]
    simp [State.advance, State.writeEth0, State.logTxn, ha]
  · rintro rfl
    exact ⟨rfl, rfl⟩

/-- Settles O12: a read reaches only the issuer's temporary, the log and the draws. -/
theorem readsHaveNoSideEffect : Obligations.ReadsHaveNoSideEffect := by
  refine ⟨fun s ha => ⟨_, exec_host_done ha nofun rfl, ?_⟩, fun i s t hi h => ?_⟩
  · rw [complete_host (s := s.readEth0) ha]
    simp [State.advance, State.readEth0, State.setT, State.logTxn, ha]
  · rcases hi with rfl | rfl
    all_goals
      have ht := (exec_next h nofun).1
      simp only [opOf, Res.settle, Host.Outcome.next.injEq] at ht
      subst ht
    · have hsame : SameDrive s s.readEth0.complete := by constructor <;> simp
      exact ⟨hsame.reg0, by simp, hsame.outputs, hsame.nodeFreq, hsame.p0, hsame.p1, hsame.run0,
        hsame.run1, by simp⟩
    · have hsame : SameDrive s s.readEth1.complete := by constructor <;> simp
      exact ⟨hsame.reg0, by simp, hsame.outputs, hsame.nodeFreq, hsame.p0, hsame.p1, hsame.run0,
        hsame.run1, by simp⟩

/-- Byte `j` of the register at offset 0. -/
theorem byteAt_reg0 (s : State) {j : Nat} (hj : j < 4) :
    s.byteAt (s.params.base + 0 + j) = some ((s.reg0 >>> (8 * j)).setWidth 8) := by
  have hlow : ¬ s.params.base + 0 + j < s.regAddr 0 := by simp [State.regAddr]
  have hmid : s.params.base + 0 + j < s.regAddr 4 := by simp only [State.regAddr]; omega
  have hidx : s.params.base + 0 + j - s.regAddr 0 = j := by simp only [State.regAddr]; omega
  rw [State.byteAt, if_neg hlow, if_pos hmid, hidx]

/-- Byte `j` of the register at offset 4. -/
theorem byteAt_reg1 (s : State) {j : Nat} (hj : j < 4) :
    s.byteAt (s.params.base + 4 + j) = some ((s.reg1 >>> (8 * j)).setWidth 8) := by
  have hlow : ¬ s.params.base + 4 + j < s.regAddr 0 := by simp only [State.regAddr]; omega
  have hmid : ¬ s.params.base + 4 + j < s.regAddr 4 := by simp [State.regAddr]
  have hhigh : s.params.base + 4 + j < s.regAddr 8 := by simp only [State.regAddr]; omega
  have hidx : s.params.base + 4 + j - s.regAddr 4 = j := by simp only [State.regAddr]; omega
  rw [State.byteAt, if_neg hlow, if_neg hmid, if_pos hhigh, hidx]

theorem byteAt_outside {s : State} {a : Nat} (h : a < s.params.base ∨ s.params.base + 8 ≤ a) :
    s.byteAt a = none := by
  unfold State.byteAt State.regAddr
  split
  · rfl
  · rw [if_neg (by omega), if_neg (by omega)]

/-- Bit `i` of a word is bit `i mod 8` of its byte `i div 8` (R45). -/
theorem getLsbD_byte (w : Word) (i : Nat) :
    ((w >>> (8 * (i / 8))).setWidth 8).getLsbD (i % 8) = w.getLsbD i := by
  simp only [BitVec.getLsbD_setWidth, BitVec.getLsbD_ushiftRight, Nat.div_add_mod]
  simp [Nat.mod_lt]

/-- Settles O18. -/
theorem windowIsLittleEndian : Obligations.WindowIsLittleEndian := by
  refine fun s => ⟨fun i hi => ?_, fun a ha => byteAt_outside ha⟩
  have hbyte : i / 8 < 4 := by omega
  exact ⟨⟨_, byteAt_reg0 s hbyte, getLsbD_byte s.reg0 i⟩,
    ⟨_, byteAt_reg1 s hbyte, getLsbD_byte s.reg1 i⟩⟩

/-! ## The masked write (R50, R52, R54, R85) -/

/-- A masked write that holds no field: a gap, the read, another gap, the write (R85). -/
theorem mwEth0_eq (s : State) (m v : Word) :
    s.mwEth0 m v = ((s.gap 0).readEth0.gap 0).writeEth0 (merge (s.gap 0).reg0 m v) := by
  show (((s.gap 0).yieldField 0).readEth0.gap 0).writeEth0 (merge ((s.gap 0).yieldField 0).reg0 m v) = _
  rw [yieldField_zero]

theorem exec_mw_zero {s : State} (ha : s.agent = .host) (m v : Word) :
    exec (.mw 0 m v) s = .next (s.mwEth0 m v).advance := by
  have hu : (s.mwEth0 m v).agent = .host := (mwEth0_agent s m v).trans ha
  rw [exec_host_done (i := .mw 0 m v) ha nofun rfl, complete_host hu]

/-- A place where another master writes, and nobody else acts. -/
theorem gap_write {s : State} {x : Word} (h : s.env.gapAt 0 = [.write x]) (held : Word) :
    s.gap held = { s with reg0 := x, env := { s.env with nGap := s.env.nGap + 1 } } := by
  simp [State.gap, h, State.intrude]

/-- A gap has been passed: the next one is the one after. -/
theorem gapAt_succ (e : Env) (k : Nat) :
    ({ e with nGap := e.nGap + 1 } : Env).gapAt k = e.gapAt (k + 1) := by
  simp [Env.gapAt, Nat.add_comm, Nat.add_left_comm]

/-- Another master's write between the two halves is lost: the masked write leaves what it leaves alone
(R50, R54). -/
theorem mwEth0_lostUpdate {s : State} (ha : s.agent = .host) (m v x : Word) (h0 : s.env.gapAt 0 = [])
    (h1 : s.env.gapAt 1 = [] ∨ s.env.gapAt 1 = [.write x]) : s.mwEth0 m v = s.afterMw m v := by
  have hnext : (s.gap 0).readEth0.env.gapAt 0 = s.env.gapAt 1 := by
    rw [gap_alone h0]
    exact gapAt_succ s.env 0
  rw [mwEth0_eq]
  rcases h1 with h1 | h1
  · rw [gap_alone (hnext.trans h1), gap_alone h0]
    simp [State.afterMw, State.readEth0, State.writeEth0, State.setT, State.logTxn, merge, ha]
  · rw [gap_write (hnext.trans h1), gap_alone h0]
    simp [State.afterMw, State.readEth0, State.writeEth0, State.setT, State.logTxn, merge, ha]

/-- Settles O16. -/
theorem maskedWriteMergesUnderMask : Obligations.MaskedWriteMergesUnderMask := by
  refine ⟨fun s m v ha => ⟨?_, ?_, fun h => ?_, fun x h => ?_⟩, fun s m v x ha h0 h1 => ?_,
    fun s m v ha => exec_host_refused ha nofun rfl, fun s off m v ha h0 h4 => ?_⟩
  · rw [exec_mw_zero ha, mwEth0_eq]
    simp [State.advance, State.writeEth0, State.logTxn, merge, ha]
  · simp [ha]
  · rw [gap_alone h]
  · rw [gap_write h]
  · rw [exec_mw_zero ha, mwEth0_lostUpdate ha m v x h0 h1]
  · refine exec_host_refused ha nofun ?_
    show maskedWrite off m v s = _
    rw [maskedWrite, if_neg h0, if_neg h4]

/-- Bit by bit, also past the word's end, where both sides are false. -/
theorem merge_getLsbD (t m v : Word) (i : Nat) :
    (merge t m v).getLsbD i = if m.getLsbD i then v.getLsbD i else t.getLsbD i := by
  by_cases hi : i < 32
  · simp [BitVec.getLsbD_eq_getElem hi]
  · have hge : 32 ≤ i := by omega
    rw [BitVec.getLsbD_of_ge _ i hge, BitVec.getLsbD_of_ge m i hge, BitVec.getLsbD_of_ge t i hge]
    rfl

theorem exec_mw_alone {s : State} (h : HostAlone s) (m v : Word) :
    exec (.mw 0 m v) s = .next (s.afterMw m v).advance := by
  rw [exec_mw_zero h.1, mwEth0_alone h]

theorem hostAlone_advance {s : State} (h : HostAlone s) : HostAlone s.advance :=
  ⟨h.1, h.2.mono rfl (le_refl _) rfl⟩

/-- Settles O17. -/
theorem laterMaskedWriteOverrides : Obligations.LaterMaskedWriteOverrides := by
  intro s m1 v1 m2 v2 h
  have h' : HostAlone (s.afterMw m1 v1).advance := hostAlone_advance (hostAlone_afterMw h m1 v1)
  refine ⟨_, _, exec_mw_alone h m1 v1, exec_mw_alone h' m2 v2, fun i => ?_, ?_⟩
  · show (merge (merge s.reg0 m1 v1) m2 v2).getLsbD i = _
    rw [merge_getLsbD, merge_getLsbD]
  · rintro rfl rfl
    exact merge_idem s.reg0 m1 v1

/-! ## Operations of one masked write, among other agents (R50, R54, R148) -/

/-- A value that lies under the mask goes in as it is. -/
theorem merge_of_under {m v : Word} (h : v &&& m = v) (t : Word) :
    merge t m v = (t &&& ~~~m) ||| v := by
  rw [merge, h]

theorem gateM_eq : gateM = 0x00000400 := rfl

/-- The word CLK.SET_PARENT writes over the word it has read (R96). -/
theorem merge_selField (t : Word) {i : Nat} (h : i < 2) :
    merge t selM (selField i) = (t &&& ~~~0x00000010) ||| BitVec.ofNat 32 (16 * i) := by
  rw [← selField_eq h]
  refine merge_of_under ?_ t
  interval_cases i <;> rfl

/-- The word CLK.SET_DIV writes over the word it has read (R97). -/
theorem merge_divField (t : Word) {d : Nat} (h : d < 8) :
    merge t divM (divField d) = (t &&& ~~~0x00000380) ||| BitVec.ofNat 32 (128 * d) := by
  rw [← divField_eq h]
  refine merge_of_under ?_ t
  interval_cases d <;> rfl

/-- The select as a rate request writes it (R98). -/
theorem merge_selField_toNat (t : Word) (b : Bool) :
    merge t selM (selField b.toNat) = (t &&& ~~~0x00000010) ||| (if b then 0x00000010 else 0) := by
  rw [merge_selField t b.toNat_lt]
  cases b <;> rfl

theorem merge_gate_open (t : Word) : merge t gateM 0x00000400 = t ||| 0x00000400 := by
  rw [merge_of_under rfl, gateM_eq]
  apply BitVec.eq_of_getElem_eq
  intro i hi
  simp only [BitVec.getElem_or, BitVec.getElem_and, BitVec.getElem_not]
  cases (0x00000400 : Word)[i] <;> simp

theorem merge_gate_close (t : Word) : merge t gateM 0x00000000 = t &&& ~~~0x00000400 := by
  rw [merge_of_under rfl, gateM_eq]
  simp

theorem setParent_ok {s : State} {n i : Nat} (hc : s.chain = .built n) (hi : i < 2) :
    setParent .m250Sel i s = .done (s.mwEth0 selM (selField i)) := by
  simp [setParent, withChain_built hc, hi, State.writeSel]

theorem setDiv_ok {s : State} {n d : Nat} (hc : s.chain = .built n) (hd : 2 ≤ d ∧ d ≤ 7) :
    setDiv .m250Div d s = .done (s.mwEth0 divM (divField d)) := by
  simp [setDiv, withChain_built hc, mem_divisors.2 hd, State.writeDiv]

theorem disableChain_last {s : State} (hc : s.chain = .built 1) :
    disableChain .rgmiiTxEn s = .done (s.disableTo 0) := by
  simp [disableChain, withChain_built hc]

/-- The last disable clears the gate in the word that stood there when it read (R102). -/
theorem disableTo_zero_reg0 (s : State) : (s.disableTo 0).reg0 =
    (({ s with chain := .built 0 } : State).gap 0).reg0 &&& ~~~0x00000400 := by
  show (({ s with chain := .built 0 } : State).mwEth0 gateM 0x00000000).reg0 = _
  rw [mwEth0_reg0, merge_gate_close]

theorem disableTo_zero_chain (s : State) : (s.disableTo 0).chain = .built 0 := by
  simp [State.disableTo]

/-- PHYMODE.APPLY of a supported mode is one masked write of the mode field (R105). -/
theorem applyPhyMode_ok {mode : PhyMode} (h : ∀ x, mode ≠ .other x) (f : Family) (s : State) :
    ∃ v, modePair f mode = some (modeMask f, v) ∧
      applyPhyMode mode f s = .done (s.mwEth0 (modeMask f) v) := by
  cases hp : modePair f mode with
  | none =>
    obtain ⟨x, hx⟩ := modePair_eq_none.1 hp
    exact absurd hx (h x)
  | some p =>
    obtain ⟨m, v⟩ := p
    obtain rfl := modePair_mask hp
    exact ⟨v, rfl, by simp [applyPhyMode, hp]⟩

theorem modePair_legacy {mode : PhyMode} {m v : Word} (h : modePair .legacy mode = some (m, v)) :
    m = 0x1 ∧ v = if mode = .rmii then 0 else 1 := by
  cases mode <;> cases h <;> exact ⟨rfl, rfl⟩

theorem modePair_ext {mode : PhyMode} {m v : Word} (h : modePair .extMode mode = some (m, v)) :
    m = 0x7 ∧ v = if mode = .rmii then 4 else 1 := by
  cases mode <;> cases h <;> exact ⟨rfl, rfl⟩

/-- Each row of the table is the operation that writes its match under its mask (R76; log 10). -/
theorem opOf_row {r : FieldRow} (h : r ∈ fieldRows) :
    opOf r.instr = fieldOp r.family r.mask r.mtch ∧ r.mtch &&& r.mask = r.mtch ∧
      r.instr ≠ .orchRelease := by
  fin_cases h <;> exact ⟨rfl, rfl, nofun⟩

theorem rowOfInstance_of_inFamily {s : State} {r : FieldRow} (h : r.inFamily s.params.family = true) :
    rowOfInstance s r.family = true := by
  unfold FieldRow.inFamily at h
  cases hf : r.family with
  | none => rfl
  | some f =>
    rw [hf] at h
    have heq : f = s.params.family := by simpa using h
    simp [rowOfInstance, heq]

/-- Where the operation of HOST is one masked write, PRG_ETH0 ends as the word that stood there after the
first gap, with the field replaced. -/
theorem exec_oneMw {i : Instr} {s : State} {m v : Word} (ha : s.agent = .host) (hi : i ≠ .orchRelease)
    (h : opOf i s = .done (s.mwEth0 m v)) :
    ∃ t, exec i s = .next t ∧ t.reg0 = merge (s.gap 0).reg0 m v :=
  ⟨_, exec_host_done ha hi h, mwEth0_reg0 s m v⟩

theorem exec_enable_first {s : State} (ha : s.agent = .host) (hc : s.chain = .built 0)
    (hf : s.env.failAt 0 = false) : ∃ t, exec (.clkEnable .rgmiiTxEn) s = .next t ∧
      t.reg0 = (({ s.popFail with run0 := true, run1 := true } : State).gap 0).reg0 ||| 0x00000400 ∧
      t.chain = .built 1 := by
  refine ⟨_, exec_host_done ha nofun (enableChain_first hc hf), ?_, rfl⟩
  show (s.popFail.openGate).reg0 = _
  rw [State.openGate, mwEth0_reg0, merge_gate_open]

/-- Settles O36: each operation is one masked write, and its value lies under the mask. -/
theorem interferenceDoesNotReachTheWrittenField :
    Obligations.InterferenceDoesNotReachTheWrittenField := by
  refine ⟨fun s n ha hc => ⟨fun i hi => ?_, fun d h2 h7 => ?_, ?_, ?_⟩, fun s c ha hcfg hmode => ?_,
    fun s r ha hr hfam => ?_⟩
  · rw [← merge_selField _ hi]
    exact exec_oneMw ha nofun (setParent_ok hc hi)
  · rw [← merge_divField _ (by omega)]
    exact exec_oneMw ha nofun (setDiv_ok hc ⟨h2, h7⟩)
  · rintro rfl hf
    exact exec_enable_first ha hc hf
  · rintro rfl
    exact ⟨_, exec_host_done ha nofun (disableChain_last hc), disableTo_zero_reg0 s,
      disableTo_zero_chain s⟩
  · obtain ⟨v, hpair, hop⟩ := applyPhyMode_ok hmode c.family s
    obtain ⟨t, ht, hreg⟩ := exec_oneMw (i := .phymodeApply) ha nofun
      (by simpa [opOf, phyModeOp, hcfg] using hop)
    refine ⟨t, ht, fun hf => ?_, fun hf => ?_⟩
    · rw [hf] at hpair hreg
      obtain ⟨hm, rfl⟩ := modePair_legacy hpair
      rw [hreg, hm, merge_of_under (by split <;> rfl)]
    · rw [hf] at hpair hreg
      obtain ⟨hm, rfl⟩ := modePair_ext hpair
      rw [hreg, hm, merge_of_under (by split <;> rfl)]
  · obtain ⟨hop, hunder, hi⟩ := opOf_row hr
    rw [← merge_of_under hunder]
    exact exec_oneMw ha hi (by rw [hop, fieldOp, if_pos (rowOfInstance_of_inFamily hfam)])

/-! ## Rate requests (R93, R95, R98), of DATAPATH and among other agents -/

/-- The divider's raw value, as a shift and a mask write it (R70). -/
theorem divRaw_eq (w : Word) : divRaw w = ((w >>> 7) &&& 7).toNat := by
  have h : fieldGet divM 7 w = (w >>> 7) &&& 7 := by
    unfold fieldGet
    rw [BitVec.ushiftRight_and_distrib]
    rfl
  rw [divRaw, h]

/-- The divisor the query uses: the raw value, or 1 where it names no divisor (R89). -/
theorem swDiv_eq {v : Nat} (h : v < 8) : swDiv v = if v < 2 then 1 else v := by
  unfold swDiv
  by_cases hv : v < 2
  · rw [if_pos hv, if_neg (by rw [mem_divisors]; omega)]
  · rw [if_neg hv, if_pos (by rw [mem_divisors]; omega)]

/-- The rate the query of `rgmii_tx_en` reports (R93). -/
theorem reportedRate_rgmiiTxEn (s : State) (w : Word) :
    reportedRate s w .rgmiiTxEn =
      (if w.getLsbD 4 then s.p1 else s.p0) /
        ((if ((w >>> 7) &&& 7).toNat < 2 then 1 else ((w >>> 7) &&& 7).toNat : Nat) : Rat) / 2 := by
  rw [reportedRate, swDiv_eq (divRaw_lt w), divRaw_eq]
  rfl

theorem getRate_ok {s : State} {n : Nat} (hc : s.chain = .built n) (node : Node) :
    getRate node s = .done (s.readEth0.setRate (reportedRate s s.reg0 node)) := withChain_built hc _

/-- DATAPATH's query reads PRG_ETH0 and reports the rate configured, and that is all (R93). -/
theorem getRate_datapath {s : State} {n : Nat} (ha : s.agent = .datapath) (hc : s.chain = .built n) :
    getRate .rgmiiTxEn s = .done { s with
      dpT := s.reg0
      dpRate := (if s.reg0.getLsbD 4 then s.p1 else s.p0) /
        ((if ((s.reg0 >>> 7) &&& 7).toNat < 2 then 1 else ((s.reg0 >>> 7) &&& 7).toNat : Nat) : Rat) / 2
      txns := s.txns ++ [⟨.datapath, .read, 0, s.reg0⟩] } := by
  rw [getRate_ok hc, reportedRate_rgmiiTxEn]
  simp [State.setRate, State.readEth0, State.setT, State.logTxn, ha]

/-- The outcome a rounding on `rgmii_tx_en` reports (R95). -/
theorem roundRate_ok {s : State} {n hz : Nat} (hc : s.chain = .built n) (h : 0 < hz) :
    ∃ o, Outcomes s (2 * (hz : Rat)) o ∧
      roundRate .rgmiiTxEn hz s = .done (s.popRate.setRate (o.parent / (o.div : Rat) / 2)) := by
  refine ⟨_, rateOutcome_mem s _ s.env.rateNow, ?_⟩
  rw [roundRate, withChain_built hc, if_neg (by omega)]
  rfl

/-- The state a rate request writes its two fields in: the choice drawn, the parents' rates those of the
outcome (R98, R99). -/
def State.chooseRate (s : State) (hz : Nat) : State :=
  { s with
    p0 := (rateOutcome s (2 * (hz : Rat)) s.env.rateNow).p0
    p1 := (rateOutcome s (2 * (hz : Rat)) s.env.rateNow).p1
    env := { s.env with nFail := s.env.nFail + 1, nRate := s.env.nRate + 1 } }

/-- A rate request that does not fail: the choice, then the two writes. -/
theorem setRate_chooseRate {s : State} {n hz : Nat} (hc : s.chain = .built n) (h : 0 < hz)
    (hf : s.env.failAt 0 = false) : setRate .rgmiiTxEn hz s =
      .done ((s.chooseRate hz).rateWrites (rateOutcome s (2 * (hz : Rat)) s.env.rateNow) s.env.rateNow) :=
  setRate_ok hc h hf

/-- The divisor of an outcome fits its field. -/
theorem Outcomes.div_lt {s : State} {T : Rat} {o : RateOutcome} (h : Outcomes s T o) : o.div < 8 := by
  have := mem_divisors.1 h.1
  omega

/-- Whatever others do, the select write ends with the select of the outcome (R54, R98). -/
theorem selBit_rateSel (s : State) (o : RateOutcome) (skip : Bool) :
    selBit (s.rateSel o skip).reg0 = o.sel := by
  unfold State.rateSel
  split
  · rename_i h
    exact h.2
  · rw [mwHeld_reg0, selBit_merge]

/-- Whatever others do, the divisor write ends with the divisor of the outcome (R54, R98). -/
theorem divRaw_rateDiv (s : State) {o : RateOutcome} (hd : o.div < 8) (skip : Bool) :
    divRaw (s.rateDiv o skip).reg0 = o.div := by
  unfold State.rateDiv
  split
  · rename_i h
    exact h.2
  · rw [mwHeld_reg0, divRaw_merge _ hd]

/-- Of the two fields, the one a rate request handles last ends as the outcome has it (R54, R98). -/
theorem rateWrites_last (s : State) {o : RateOutcome} (hd : o.div < 8) (c : RateChoice) :
    if c.divFirst = true then selBit (s.rateWrites o c).reg0 = o.sel
    else divRaw (s.rateWrites o c).reg0 = o.div := by
  unfold State.rateWrites
  split
  · exact selBit_rateSel _ o _
  · exact divRaw_rateDiv _ hd _

theorem datapathFrame_rateSel {s : State} (ha : s.agent = .datapath) (hj : s.dpJob = [])
    (o : RateOutcome) (skip : Bool) : DatapathFrame s (s.rateSel o skip) := by
  unfold State.rateSel
  split
  · exact gap_of_datapath ha 0
  · exact mwHeld_of_datapath ha hj _ _ _

theorem datapathFrame_rateDiv {s : State} (ha : s.agent = .datapath) (hj : s.dpJob = [])
    (o : RateOutcome) (skip : Bool) : DatapathFrame s (s.rateDiv o skip) := by
  unfold State.rateDiv
  split
  · exact gap_of_datapath ha 0
  · exact mwHeld_of_datapath ha hj _ _ _

/-- The writes of DATAPATH's own rate set, other masters in its gaps, reach no parent's rate, no request
of DATAPATH and no draw. -/
theorem datapathFrame_rateWrites {s : State} (ha : s.agent = .datapath) (hj : s.dpJob = [])
    (o : RateOutcome) (c : RateChoice) : DatapathFrame s (s.rateWrites o c) := by
  have hkeep : ∀ u, DatapathFrame s u → u.agent = .datapath ∧ u.dpJob = [] := by
    intro u hu
    rw [hu]
    exact ⟨ha, hj⟩
  unfold State.rateWrites
  split
  · have hdiv := datapathFrame_rateDiv ha hj o c.skipDiv
    obtain ⟨ha', hj'⟩ := hkeep _ hdiv
    exact hdiv.trans (datapathFrame_rateSel ha' hj' o _)
  · have hsel := datapathFrame_rateSel ha hj o c.skipSel
    obtain ⟨ha', hj'⟩ := hkeep _ hsel
    exact hsel.trans (datapathFrame_rateDiv ha' hj' o _)

/-! ## DATAPATH's operations (R103, R134) -/

/-- A completed request of DATAPATH reports no error, and HOST's position stays (R140). -/
theorem complete_datapath {s : State} (h : s.agent = .datapath) :
    s.complete = { s with dpError := none } := by
  simp [State.complete, h]

section
variable {s : State} (ha : s.agent = .datapath) (hp : s.result = .programmed)
include ha hp

theorem exec_clkGetRate_datapath :
    exec (.clkGetRate .rgmiiTxEn) s = (getRate .rgmiiTxEn s).settle := rateRequest_datapath ha hp _

theorem exec_clkRoundRate_datapath (hz : Nat) :
    exec (.clkRoundRate .rgmiiTxEn hz) s = (roundRate .rgmiiTxEn hz s).settle :=
  rateRequest_datapath ha hp _

theorem exec_clkSetRate_datapath (hz : Nat) :
    exec (.clkSetRate .rgmiiTxEn hz) s = (setRate .rgmiiTxEn hz s).settle :=
  rateRequest_datapath ha hp _

end

/-- A rate set of DATAPATH that does not fail: the parents' rates of the outcome, what its two writes
leave of PRG_ETH0, and nothing else but its temporary, the log and the draws (R98, R103). -/
theorem exec_clkSetRate_ok_datapath {s w : State} {n hz : Nat} (ha : s.agent = .datapath)
    (hp : s.result = .programmed) (hc : s.chain = .built n) (h0 : 0 < hz)
    (hf : s.env.failAt 0 = false) (hj : s.dpJob = [])
    (hw : w = (s.chooseRate hz).rateWrites (rateOutcome s (2 * (hz : Rat)) s.env.rateNow) s.env.rateNow) :
    exec (.clkSetRate .rgmiiTxEn hz) s = .next { s with
      reg0 := w.reg0
      p0 := (rateOutcome s (2 * (hz : Rat)) s.env.rateNow).p0
      p1 := (rateOutcome s (2 * (hz : Rat)) s.env.rateNow).p1
      dpT := w.dpT
      dpError := none
      txns := w.txns
      env := { s.env with
        nFail := s.env.nFail + 1
        nRate := s.env.nRate + 1
        nGap := w.env.nGap } } := by
  have hframe : DatapathFrame (s.chooseRate hz) w :=
    hw ▸ datapathFrame_rateWrites (s := s.chooseRate hz) ha hj _ _
  have ha' : w.agent = .datapath := by rw [hframe]; exact ha
  rw [exec_clkSetRate_datapath ha hp, setRate_chooseRate hc h0 hf, ← hw, Res.settle,
    complete_datapath ha']
  unfold DatapathFrame at hframe
  rw [hframe]
  rfl

/-- A rate request without a chain, or of 0 Hz, is refused; the chain is asked for first (log 25). -/
theorem rateRequest_refused {s : State} {hz : Nat} (h : s.chain = .none ∨ hz = 0) :
    roundRate .rgmiiTxEn hz s = .refused (if s.chain = .none then .noChain else .rateZero) ∧
      setRate .rgmiiTxEn hz s = .refused (if s.chain = .none then .noChain else .rateZero) := by
  cases hc : s.chain with
  | none => simp [roundRate, setRate, withChain_none hc]
  | built n =>
    obtain rfl : hz = 0 := h.resolve_left (by simp [hc])
    simp [roundRate, setRate, withChain_built hc]

/-- Settles O31. -/
theorem datapathRateOperationsComplete : Obligations.DatapathRateOperationsComplete := by
  refine ⟨fun s n hz ha hp hc h0 => ⟨?_, ?_, fun hx hf => ?_, fun hj hf => ?_⟩,
    fun s hz ha hp => ⟨fun hc => ?_, fun h => ?_⟩⟩
  · rw [exec_clkGetRate_datapath ha hp, getRate_datapath ha hc, Res.settle,
      complete_datapath (by exact ha)]
  · obtain ⟨o, ho, hround⟩ := roundRate_ok hc h0
    refine ⟨o, ho, ?_⟩
    rw [exec_clkRoundRate_datapath ha hp, hround, Res.settle, complete_datapath (by exact ha)]
    simp [State.setRate, State.popRate, ha]
  · have ho := rateOutcome_mem s (2 * (hz : Rat)) s.env.rateNow
    have hx' : ExclusiveInit (s.chooseRate hz) := hx.mono rfl (le_refl _) rfl
    obtain ⟨hpart, hsel, hdiv⟩ := rateWrites_alone hx' _ ho.div_lt s.env.rateNow
    exact ⟨_, _, exec_clkSetRate_ok_datapath ha hp hc h0 hf hx.2 rfl, ho, hsel, hdiv, hpart.keep, rfl⟩
  · have ho := rateOutcome_mem s (2 * (hz : Rat)) s.env.rateNow
    exact ⟨_, exec_clkSetRate_ok_datapath ha hp hc h0 hf hj rfl, ho,
      rateWrites_last _ ho.div_lt s.env.rateNow, rfl⟩
  · rw [exec_clkGetRate_datapath ha hp, getRate, withChain_none hc]
    rfl
  · obtain ⟨hround, hset⟩ := rateRequest_refused h
    rw [exec_clkRoundRate_datapath ha hp, exec_clkSetRate_datapath ha hp, hround, hset]
    exact ⟨rfl, rfl⟩

/-! ## Two rate requests on one field (R55) -/

/-- DATAPATH's next move waits where it is a transaction on the field held. -/
theorem intrude_waits {held : Word} {s : State} {x : DpMove} {rest : List DpMove}
    (hj : s.dpJob = x :: rest) (hm : x.mask = held) (hs : s.dpSkips x = false) :
    s.intrude held .datapath = s := by
  simp [State.intrude, State.dpWaits, hj, hm, hs]

theorem dpSkips_setSel_false {s : State} {sel skip : Bool} (h : ¬ (skip = true ∧ selBit s.reg0 = sel)) :
    s.dpSkips (.setSel sel skip) = false :=
  Bool.eq_false_iff.2 (fun hs => h ((dpSkips_setSel s sel skip).1 hs))

theorem dpSkips_setDiv_false {s : State} {d : Nat} {skip : Bool}
    (h : ¬ (skip = true ∧ divRaw s.reg0 = d)) : s.dpSkips (.setDiv d skip) = false :=
  Bool.eq_false_iff.2 (fun hs => h ((dpSkips_setDiv s d skip).1 hs))

/-- DATAPATH's write of the select, which HOST's read waits for. -/
theorem yieldField_writeSel {s : State} {sel : Bool} {rest : List DpMove}
    (hj : s.dpJob = .writeSel sel :: rest) :
    s.yieldField selM = { s with
      reg0 := merge s.dpT selM (selField sel.toNat)
      txns := s.txns ++ [⟨.datapath, .write, 0, merge s.dpT selM (selField sel.toNat)⟩]
      dpJob := rest } := by
  simp [State.yieldField, hj, State.asDatapath, State.dpRun, State.writeEth0, State.logTxn]

/-- DATAPATH's write of the divisor, which HOST's read waits for. -/
theorem yieldField_writeDiv {s : State} {d : Nat} {rest : List DpMove}
    (hj : s.dpJob = .writeDiv d :: rest) :
    s.yieldField divM = { s with
      reg0 := merge s.dpT divM (divField d)
      txns := s.txns ++ [⟨.datapath, .write, 0, merge s.dpT divM (divField d)⟩]
      dpJob := rest } := by
  simp [State.yieldField, hj, State.asDatapath, State.dpRun, State.writeEth0, State.logTxn]

/-- A read still to come is nothing HOST waits for. -/
theorem yieldField_setSel {s : State} {sel skip : Bool} {rest : List DpMove}
    (hj : s.dpJob = .setSel sel skip :: rest) (held : Word) : s.yieldField held = s := by
  simp [State.yieldField, hj]

theorem yieldField_setDiv {s : State} {d : Nat} {skip : Bool} {rest : List DpMove}
    (hj : s.dpJob = .setDiv d skip :: rest) (held : Word) : s.yieldField held = s := by
  simp [State.yieldField, hj]

/-- A masked write of HOST reads the word that the wait has left, and logs the read right after it. -/
theorem mwHeld_reads {s : State} (ha : s.agent = .host) (held m v : Word) :
    ∃ later, (s.mwHeld held m v).txns = ((s.gap 0).yieldField held).txns ++
      ⟨.host, .read, 0, ((s.gap 0).yieldField held).reg0⟩ :: later := by
  have ha' : ((s.gap 0).yieldField held).agent = .host := by
    rw [(yieldField_spec held (s.gap 0)).1]
    exact (gap_agent 0 s).trans ha
  have hwrite : ∀ u w, LogGrows u (State.writeEth0 u w) := fun _ _ => ⟨_, rfl⟩
  obtain ⟨later, hl⟩ : LogGrows ((s.gap 0).yieldField held).readEth0 (s.mwHeld held m v) :=
    (logGrows_gap held _).trans (hwrite _ _)
  refine ⟨later, ?_⟩
  rw [hl, readEth0_txns, ha', List.append_assoc]
  rfl

/-- HOST's read comes right after the write of DATAPATH that it waited for (R55). -/
theorem mwHeld_after_datapath {s : State} (ha : s.agent = .host) (held m v : Word) {w : Word}
    (htxns : ((s.gap 0).yieldField held).txns = (s.gap 0).txns ++ [⟨.datapath, .write, 0, w⟩])
    (hreg : ((s.gap 0).yieldField held).reg0 = w) : ∃ later, (s.mwHeld held m v).txns =
      (s.gap 0).txns ++ [⟨.datapath, .write, 0, w⟩, ⟨.host, .read, 0, w⟩] ++ later := by
  obtain ⟨later, hl⟩ := mwHeld_reads ha held m v
  exact ⟨later, by rw [hl, htxns, hreg]; simp⟩

/-- HOST's read and write stand next to each other where DATAPATH is about to read for the field
(R55). -/
theorem mwHeld_unbroken {s : State} (ha : s.agent = .host) {held : Word} (m v : Word) {x : DpMove}
    {rest : List DpMove} (hj : (s.gap 0).dpJob = x :: rest) (hm : x.mask = held)
    (hs : ∀ u : State, u.dpSkips x = false) (hy : (s.gap 0).yieldField held = s.gap 0) :
    (s.mwHeld held m v).txns = (s.gap 0).txns ++
      [⟨.host, .read, 0, (s.gap 0).reg0⟩, ⟨.host, .write, 0, merge (s.gap 0).reg0 m v⟩] := by
  obtain ⟨_, htxns, _⟩ := gap_waits (s := (s.gap 0).readEth0) hj hm hs
  show ((((s.gap 0).yieldField held).readEth0.gap held).writeEth0
    (merge ((s.gap 0).yieldField held).reg0 m v)).txns = _
  rw [hy]
  simp only [writeEth0_txns, htxns, readEth0_txns, gap_agent, readEth0_agent, ha, List.append_assoc,
    List.cons_append, List.nil_append]

theorem logGrows_rateSel (s : State) (o : RateOutcome) (skip : Bool) : LogGrows s (s.rateSel o skip) := by
  unfold State.rateSel
  split
  · exact logGrows_gap 0 s
  · exact logGrows_mwHeld _ _ _ s

theorem logGrows_rateDiv (s : State) (o : RateOutcome) (skip : Bool) : LogGrows s (s.rateDiv o skip) := by
  unfold State.rateDiv
  split
  · exact logGrows_gap 0 s
  · exact logGrows_mwHeld _ _ _ s

/-- The select handled first, and not skipped: its masked write comes first in the log. -/
theorem logGrows_selFirst {s : State} {o : RateOutcome} {c : RateChoice} (hd : c.divFirst = false)
    (hs : ¬ (c.skipSel = true ∧ selBit (s.gap 0).reg0 = o.sel)) :
    LogGrows (s.mwHeld selM selM (selField o.sel.toNat)) (s.rateWrites o c) := by
  have hsel : s.rateSel o c.skipSel = s.mwHeld selM selM (selField o.sel.toNat) := if_neg hs
  rw [State.rateWrites, hd, if_neg (by simp), hsel]
  exact logGrows_rateDiv _ o _

/-- The divisor handled first, and not skipped: its masked write comes first in the log. -/
theorem logGrows_divFirst {s : State} {o : RateOutcome} {c : RateChoice} (hd : c.divFirst = true)
    (hs : ¬ (c.skipDiv = true ∧ divRaw (s.gap 0).reg0 = o.div)) :
    LogGrows (s.mwHeld divM divM (divField o.div)) (s.rateWrites o c) := by
  have hdiv : s.rateDiv o c.skipDiv = s.mwHeld divM divM (divField o.div) := if_neg hs
  rw [State.rateWrites, if_pos hd, hdiv]
  exact logGrows_rateSel _ o _

/-- HOST's CLK.SET_RATE logs what the field it handles first logs, and more after it. -/
theorem exec_clkSetRate_log {s w : State} {n hz : Nat} (ha : s.agent = .host) (hc : s.chain = .built n)
    (h0 : 0 < hz) (hf : s.env.failAt 0 = false)
    (hw : LogGrows w
      ((s.chooseRate hz).rateWrites (rateOutcome s (2 * (hz : Rat)) s.env.rateNow) s.env.rateNow))
    {first : List Txn} (hfirst : ∃ l, w.txns = first ++ l) :
    ∃ t later, exec (.clkSetRate .rgmiiTxEn hz) s = .next t ∧ t.txns = first ++ later := by
  obtain ⟨l, hl⟩ := hfirst
  obtain ⟨l', hl'⟩ := hw
  refine ⟨_, l ++ l', exec_host_done ha nofun (setRate_chooseRate hc h0 hf), ?_⟩
  rw [complete_txns, hl', hl, List.append_assoc]

/-- Settles O10. -/
theorem rateRequestsOnOneFieldAreSerial : Obligations.RateRequestsOnOneFieldAreSerial := by
  refine ⟨fun s rest _ => ⟨fun sel hj => ?_, fun d hj => ?_, fun sel skip hj hs => ?_,
    fun d skip hj hs => ?_⟩, fun s rest _ => ⟨fun sel hj => ?_, fun d hj => ?_⟩,
    fun s n hz rest ha hc h0 hf => ?_⟩
  · exact intrude_waits hj rfl rfl
  · exact intrude_waits hj rfl rfl
  · exact intrude_waits hj rfl (dpSkips_setSel_false hs)
  · exact intrude_waits hj rfl (dpSkips_setDiv_false hs)
  · rcases hj with hj | hj
    · exact gap_waits hj rfl (fun _ => rfl)
    · exact gap_waits hj rfl (fun _ => rfl)
  · rcases hj with hj | hj
    · exact gap_waits hj rfl (fun _ => rfl)
    · exact gap_waits hj rfl (fun _ => rfl)
  · intro c o u
    have ho : o.div < 8 := (rateOutcome_mem s (2 * (hz : Rat)) c).div_lt
    refine ⟨fun hd hs => ?_, fun hd hs => ?_⟩
    · have hw : LogGrows ((s.chooseRate hz).mwHeld selM selM (selField o.sel.toNat)) _ :=
        logGrows_selFirst hd hs
      refine ⟨fun sel hj => ?_, fun sel hj => ?_⟩
      · have hy := yieldField_writeSel hj
        rw [merge_selField_toNat] at hy
        exact exec_clkSetRate_log ha hc h0 hf hw (mwHeld_after_datapath (s := s.chooseRate hz) ha selM
          _ _ (congrArg State.txns hy) (congrArg State.reg0 hy))
      · have htx := mwHeld_unbroken (s := s.chooseRate hz) (held := selM) ha selM
          (selField o.sel.toNat) hj rfl (fun _ => rfl) (yieldField_setSel hj selM)
        rw [merge_selField_toNat] at htx
        exact exec_clkSetRate_log ha hc h0 hf hw ⟨[], htx.trans (List.append_nil _).symm⟩
    · have hw : LogGrows ((s.chooseRate hz).mwHeld divM divM (divField o.div)) _ :=
        logGrows_divFirst hd hs
      refine ⟨fun d hj h2 h7 => ?_, fun d hj => ?_⟩
      · have hy := yieldField_writeDiv hj
        rw [merge_divField _ (by omega)] at hy
        exact exec_clkSetRate_log ha hc h0 hf hw (mwHeld_after_datapath (s := s.chooseRate hz) ha divM
          _ _ (congrArg State.txns hy) (congrArg State.reg0 hy))
      · have htx := mwHeld_unbroken (s := s.chooseRate hz) (held := divM) ha divM
          (divField o.div) hj rfl (fun _ => rfl) (yieldField_setDiv hj divM)
        rw [merge_divField _ ho] at htx
        exact exec_clkSetRate_log ha hc h0 hf hw ⟨[], htx.trans (List.append_nil _).symm⟩

/-! ## The turns of another agent between HOST's operations (R54, R55, R103) -/

theorem step_other {s : State} {x : Intrusion} (h : s.nextTurn = .other x) :
    step s = .next (({ s with agent := .host, sched := s.sched.tail } : State).intrude 0 x) := by
  simp [step, State.issue, h]

/-- DATAPATH at work between two operations of HOST. -/
def State.dpTurn (s : State) : State := { s with agent := .datapath, sched := s.sched.tail }

/-- DATAPATH's turn between two operations is one move of its. -/
theorem step_dpTurn {s v : State} (h : s.nextTurn = .other .datapath) (hv : s.dpTurn.dpMove = v) :
    step s = .next { v with agent := .host } := by
  have hwork : ¬ (Agent.host = .datapath ∨
      ({ s with agent := .host, sched := s.sched.tail } : State).dpWaits 0 = true) := by simp
  rw [step_other h, State.intrude, if_neg hwork, ← hv]
  rfl

theorem dpMove_begin {s : State} (hj : s.dpJob = []) : s.dpMove = s.dpBegin := by
  simp [State.dpMove, hj]

theorem dpMove_run {s : State} {m : DpMove} {rest : List DpMove} (hj : s.dpJob = m :: rest) :
    s.dpMove = s.dpRun m rest := by
  simp [State.dpMove, hj]

/-- With no request, or before the result is Programmed, DATAPATH does nothing (R103, R144). -/
theorem dpBegin_idle {s : State} (h : s.dpQueue = [] ∨ s.result ≠ .programmed) : s.dpBegin = s := by
  unfold State.dpBegin
  split
  · rename_i hq hr
    exact absurd h (by simp [hq, hr])
  · rfl

section
variable {s : State} {w : OpWord} {rest : List OpWord} (hq : s.dpQueue = w :: rest)
  (hr : s.result = .programmed)
include hq hr

theorem dpBegin_done {u : State} (h : beginRequest w { s with dpQueue := rest } = .done u) :
    s.dpBegin = u.complete := by
  rw [hr] at h
  simp [State.dpBegin, hq, hr, h]

theorem dpBegin_raised {k : ErrKind} {g : Stage} {u : State}
    (h : beginRequest w { s with dpQueue := rest } = .raised k g u) : s.dpBegin = u.takeRaise k g := by
  rw [hr] at h
  simp [State.dpBegin, hq, hr, h]

/-- A request that is refused stays where it is (log 17). -/
theorem dpBegin_refused {r : Refusal} (h : beginRequest w { s with dpQueue := rest } = .refused r) :
    s.dpBegin = s := by
  rw [hr] at h
  simp [State.dpBegin, hq, hr, h]

end

theorem beginRate_fail {s : State} {n hz : Nat} (hc : s.chain = .built n) (h0 : 0 < hz)
    (hf : s.env.failAt 0 = true) : beginRate hz s = .raised .rateSetFailed .clkSetRate s.popFail := by
  rw [beginRate, withChain_built hc, if_neg (by omega), if_pos hf]

/-- The beginning of DATAPATH's rate set chooses as HOST's does, and puts its writes in line (R98,
R99). -/
theorem beginRate_ok {s : State} {n hz : Nat} (hc : s.chain = .built n) (h0 : 0 < hz)
    (hf : s.env.failAt 0 = false) : beginRate hz s = .done { s.chooseRate hz with
      dpJob := rateMoves (rateOutcome s (2 * (hz : Rat)) s.env.rateNow) s.env.rateNow } := by
  rw [beginRate, withChain_built hc, if_neg (by omega), if_neg (by simp [hf])]
  rfl

theorem rateMoves_order (o : RateOutcome) (c : RateChoice) :
    rateMoves o c = [.setSel o.sel c.skipSel, .setDiv o.div c.skipDiv] ∨
      rateMoves o c = [.setDiv o.div c.skipDiv, .setSel o.sel c.skipSel] := by
  unfold rateMoves
  split
  · exact .inr rfl
  · exact .inl rfl

/-- A request of DATAPATH is refused where its word is no operation, where no chain is built, for 0 Hz,
and where it is none of the three rate operations on `rgmii_tx_en` (R95, R98, R103, R134). -/
theorem beginRequest_refused {s : State} {w : OpWord}
    (h : (∃ e, decode w = .error e) ∨ (∃ i, decode w = .ok i ∧
      (s.chain = .none ∨ i = .clkRoundRate .rgmiiTxEn 0 ∨ i = .clkSetRate .rgmiiTxEn 0 ∨
        (i ≠ .clkGetRate .rgmiiTxEn ∧ ∀ hz, i ≠ .clkRoundRate .rgmiiTxEn hz ∧
          i ≠ .clkSetRate .rgmiiTxEn hz)))) : ∃ r, beginRequest w s = .refused r := by
  have hchain : ∀ op : Nat → Res, (s.chain = .none ∨ ∀ n, ∃ r, op n = .refused r) →
      ∃ r, withChain s op = .refused r := by
    intro op hop
    cases hc : s.chain with
    | none => exact ⟨_, withChain_none hc op⟩
    | built n =>
      rw [withChain_built hc]
      exact hop.resolve_left (by simp [hc]) n
  unfold beginRequest
  split
  · rename_i hd
    exact hchain _ (.inl (by simpa [hd] using h))
  · rename_i hz hd
    refine hchain _ ?_
    have h : s.chain = .none ∨ hz = 0 := by simpa [hd] using h
    exact h.imp_right (fun h0 _ => ⟨_, if_pos h0⟩)
  · rename_i hz hd
    refine hchain _ ?_
    have h : s.chain = .none ∨ hz = 0 := by simpa [hd] using h
    exact h.imp_right (fun h0 _ => ⟨_, if_pos h0⟩)
  · exact ⟨_, rfl⟩
  · exact ⟨_, rfl⟩

section
variable {s : State} (ha : s.agent = .datapath) (rest : List DpMove)
include ha

/-- A read for the select, skipped only where the select holds the value (R98). -/
theorem dpRun_setSel (sel skip : Bool) : s.dpRun (.setSel sel skip) rest =
    if skip = true ∧ selBit s.reg0 = sel then { s with dpJob := rest } else { s with
      dpT := s.reg0
      txns := s.txns ++ [⟨.datapath, .read, 0, s.reg0⟩]
      dpJob := .writeSel sel :: rest } := by
  simp [State.dpRun, State.readEth0, State.setT, State.logTxn, ha]

/-- A read for the divisor, skipped only where the divisor holds the value (R98). -/
theorem dpRun_setDiv (d : Nat) (skip : Bool) : s.dpRun (.setDiv d skip) rest =
    if skip = true ∧ divRaw s.reg0 = d then { s with dpJob := rest } else { s with
      dpT := s.reg0
      txns := s.txns ++ [⟨.datapath, .read, 0, s.reg0⟩]
      dpJob := .writeDiv d :: rest } := by
  simp [State.dpRun, State.readEth0, State.setT, State.logTxn, ha]

/-- The write of the word that was read, with the select replaced (R50, R96). -/
theorem dpRun_writeSel (sel : Bool) : s.dpRun (.writeSel sel) rest = { s with
    reg0 := (s.dpT &&& ~~~0x00000010) ||| (if sel then 0x00000010 else 0)
    txns := s.txns ++
      [⟨.datapath, .write, 0, (s.dpT &&& ~~~0x00000010) ||| (if sel then 0x00000010 else 0)⟩]
    dpJob := rest } := by
  rw [← merge_selField_toNat, ← ha]
  rfl

/-- The write of the word that was read, with the divisor replaced (R50, R97). -/
theorem dpRun_writeDiv {d : Nat} (hd : d < 8) : s.dpRun (.writeDiv d) rest = { s with
    reg0 := (s.dpT &&& ~~~0x00000380) ||| BitVec.ofNat 32 (128 * d)
    txns := s.txns ++
      [⟨.datapath, .write, 0, (s.dpT &&& ~~~0x00000380) ||| BitVec.ofNat 32 (128 * d)⟩]
    dpJob := rest } := by
  rw [← merge_divField _ hd, ← ha]
  rfl

end

/-- Settles O9: every clause is one move of DATAPATH's, by what is left of its rate set and by its
oldest request. -/
theorem otherAgentsActBetweenOperations : Obligations.OtherAgentsActBetweenOperations := by
  refine ⟨fun s v h => step_other h, fun s h => ?_⟩
  intro u
  have hbegin : s.dpJob = [] → s.dpTurn.dpMove = s.dpTurn.dpBegin := fun hj => dpMove_begin hj
  have hrun : ∀ m rest, s.dpJob = m :: rest → s.dpTurn.dpMove = s.dpTurn.dpRun m rest :=
    fun _ _ hj => dpMove_run hj
  refine ⟨fun hj hidle => ?_, fun hz rest n hj hq hr hc h0 => ⟨fun hf => ?_, fun hf => ?_⟩,
    fun rest n hj hq hr hc => ?_, fun hz rest n hj hq hr hc h0 => ?_, fun w rest hj hq hr href => ?_,
    fun sel skip rest hj => ?_, fun d skip rest hj => ?_, fun sel rest hj => ?_,
    fun d rest hj h2 h7 => ?_⟩
  · rw [step_dpTurn h ((hbegin hj).trans (dpBegin_idle hidle))]
    rfl
  · rw [step_dpTurn h ((hbegin hj).trans
      (dpBegin_raised (s := s.dpTurn) hq hr (beginRate_fail hc h0 hf)))]
    rfl
  · refine ⟨_, _, _, rateOutcome_mem s _ s.env.rateNow, _, rateMoves_order _ s.env.rateNow, ?_⟩
    rw [step_dpTurn h ((hbegin hj).trans (dpBegin_done (s := s.dpTurn) hq hr (beginRate_ok hc h0 hf)))]
    rfl
  · intro raw parent
    have hquery := getRate_datapath (s := { s.dpTurn with dpQueue := rest }) rfl hc
    rw [step_dpTurn h ((hbegin hj).trans (dpBegin_done (s := s.dpTurn) hq hr hquery)),
      complete_datapath (by rfl)]
    rfl
  · obtain ⟨o, ho, hround⟩ := roundRate_ok (s := { s.dpTurn with dpQueue := rest }) hc h0
    refine ⟨o, ho, ?_⟩
    rw [step_dpTurn h ((hbegin hj).trans (dpBegin_done (s := s.dpTurn) hq hr hround))]
    rfl
  · obtain ⟨r, hreq⟩ := beginRequest_refused (s := { s.dpTurn with dpQueue := rest }) href
    rw [step_dpTurn h ((hbegin hj).trans (dpBegin_refused (s := s.dpTurn) hq hr hreq))]
    rfl
  · have hmove := (hrun _ _ hj).trans (dpRun_setSel rfl rest sel skip)
    by_cases hskip : skip = true ∧ selBit s.reg0 = sel
    · rw [if_pos hskip, step_dpTurn h (hmove.trans (if_pos hskip))]
      rfl
    · rw [if_neg hskip, step_dpTurn h (hmove.trans (if_neg hskip))]
      rfl
  · have hmove := (hrun _ _ hj).trans (dpRun_setDiv rfl rest d skip)
    by_cases hskip : skip = true ∧ divRaw s.reg0 = d
    · rw [if_pos hskip, step_dpTurn h (hmove.trans (if_pos hskip))]
      rfl
    · rw [if_neg hskip, step_dpTurn h (hmove.trans (if_neg hskip))]
      rfl
  · rw [step_dpTurn h ((hrun _ _ hj).trans (dpRun_writeSel rfl rest sel))]
    rfl
  · rw [step_dpTurn h ((hrun _ _ hj).trans (dpRun_writeDiv rfl rest (by omega)))]
    rfl

/-! ## What interference reaches of an operation's own state (R54, R98) -/

/-- What masked writes, gaps and the choice of a rate change at most, and what they keep of DATAPATH's
side: the draws of failures among it are DATAPATH's, one for each request. -/
structure Interfered (s t : State) : Prop where
  frame : MwFrame s t
  dp : KeepsDpInv s t

theorem interfered_steady : Steady Interfered where
  refl s := ⟨.refl s, .refl s⟩
  trans _ _ _ h k := ⟨h.frame.trans k.frame, h.dp.trans k.dp⟩

theorem interfered_gap (held : Word) (s : State) : Interfered s (s.gap held) :=
  ⟨(gap_spec held s).1.mwFrame, (gap_spec held s).2⟩

theorem interfered_mwHeld (held m v : Word) (s : State) : Interfered s (s.mwHeld held m v) :=
  ⟨(mwHeld_spec held m v s).1, (mwHeld_spec held m v s).2⟩

theorem interfered_rateWrites (s : State) (o : RateOutcome) (c : RateChoice) :
    Interfered s (s.rateWrites o c) :=
  interfered_steady.rateWrites (interfered_gap 0) (fun u v => interfered_mwHeld selM selM v u)
    (fun u v => interfered_mwHeld divM divM v u) s o c

theorem interfered_applyRate (s : State) (hz : Nat) : Interfered s (s.applyRate hz) :=
  interfered_steady.applyRate (interfered_gap 0) (fun _ => ⟨rfl, id, id, id, le_refl _, le_refl _⟩)
    (fun _ a b => ⟨rfl, fun h => newRate_pos h a, fun h => newRate_pos h b, id, le_refl _, le_refl _⟩)
    (fun u v => interfered_mwHeld selM selM v u) (fun u v => interfered_mwHeld divM divM v u) s hz

section
variable {s t : State} (h : Interfered s t)
include h

theorem Interfered.chain : t.chain = s.chain := by rw [h.frame]

theorem Interfered.adjEnabled : t.adjEnabled = s.adjEnabled := by rw [h.frame]

theorem Interfered.fails : t.env.fails = s.env.fails := by rw [h.frame]

theorem Interfered.params : t.params = s.params := by rw [h.frame]

end

/-! ## Failure answers that suffice (D16) -/

/-- `k` answers to come do not fail, however many requests of DATAPATH draw theirs in between. -/
def Unfailing (k : Nat) (s : State) : Prop := NoFailure s (k + s.dpQueue.length)

theorem Unfailing.interfered {s t : State} {k : Nat} (hk : Unfailing k s) (h : Interfered s t) :
    Unfailing k t := h.dp.noFailure h.fails hk

theorem Unfailing.now {s : State} {k : Nat} (hk : Unfailing (k + 1) s) : s.env.failAt 0 = false :=
  hk 0 (by omega)

theorem Unfailing.popFail {s : State} {k : Nat} (hk : Unfailing (k + 1) s) : Unfailing k s.popFail := by
  intro j hj
  have hj' : j < k + s.dpQueue.length := hj
  rw [popFail_failAt]
  exact hk (j + 1) (by omega)

theorem Unfailing.mono {s : State} {k l : Nat} (hk : Unfailing l s) (h : k ≤ l) : Unfailing k s :=
  fun j hj => hk j (by omega)

/-! ## CLK.SET_RATE among other agents (R98) -/

/-- Where no rate request can begin, none does, and the parents' rates stay (R99, R144). -/
def KeepsParents (s t : State) : Prop :=
  (s.dpQueue = [] ∨ s.result ≠ .programmed) →
    (t.dpQueue = [] ∨ t.result ≠ .programmed) ∧ t.p0 = s.p0 ∧ t.p1 = s.p1

theorem keepsParents_dpRun (s : State) (m : DpMove) (rest : List DpMove) :
    KeepsParents s (s.dpRun m rest) := by
  intro h
  cases m <;> simp only [State.dpRun]
  case writeSel | writeDiv => exact ⟨h, rfl, rfl⟩
  all_goals split <;> exact ⟨h, rfl, rfl⟩

theorem keepsParents_dpMove (s : State) : KeepsParents s s.dpMove := by
  cases hj : s.dpJob with
  | nil =>
    intro h
    rw [dpMove_begin hj, dpBegin_idle h]
    exact ⟨h, rfl, rfl⟩
  | cons m rest =>
    rw [dpMove_run hj]
    exact keepsParents_dpRun s m rest

theorem keepsParents_steady : Steady KeepsParents where
  refl _ h := ⟨h, rfl, rfl⟩
  trans _ _ _ h k hs := by
    obtain ⟨hu, h0, h1⟩ := h hs
    obtain ⟨ht, k0, k1⟩ := k hu
    exact ⟨ht, k0.trans h0, k1.trans h1⟩

theorem keepsParents_others : OtherMoves KeepsParents where
  refl := keepsParents_steady.refl
  trans := keepsParents_steady.trans
  write _ _ h := ⟨h, rfl, rfl⟩
  datapath u h := keepsParents_dpMove { u with agent := .datapath } h
  place _ h := ⟨h, rfl, rfl⟩

theorem keepsParents_rateWrites (s : State) (o : RateOutcome) (c : RateChoice) :
    KeepsParents s (s.rateWrites o c) := by
  have hmw : ∀ u held m v, KeepsParents u (u.mwHeld held m v) := fun u held m v =>
    keepsParents_others.mwHeld (fun _ h => ⟨h, rfl, rfl⟩) (fun _ _ h => ⟨h, rfl, rfl⟩) held m v u
  exact keepsParents_steady.rateWrites (keepsParents_others.gap 0) (fun u v => hmw u _ _ v)
    (fun u v => hmw u _ _ v) s o c

/-- An operation of HOST that is done advances the list and leaves the run's outcome. -/
theorem exec_host_advances {i : Instr} {s u : State} (ha : s.agent = .host) (hi : i ≠ .orchRelease)
    (hinit : i ≠ .orchInit) (h : opOf i s = .done u) :
    exec i s = .next u.advance ∧ u.pos = s.pos ∧ u.result = s.result := by
  have hrun : SameRun s u := by simpa [h] using opOf_sameRun hinit s
  exact ⟨by rw [exec_host_done ha hi h, complete_host (hrun.agent.trans ha)], hrun.pos, hrun.result⟩

/-- CLK.SET_RATE completes whatever others do (R54, R98). -/
theorem exec_clkSetRate_interfered {s : State} {n hz : Nat} (ha : s.agent = .host)
    (hc : s.chain = .built n) (h0 : 0 < hz) (hf : s.env.failAt 0 = false) :
    let o := rateOutcome s (2 * (hz : Rat)) s.env.rateNow
    ∃ t, exec (.clkSetRate .rgmiiTxEn hz) s = .next t ∧ Outcomes s (2 * (hz : Rat)) o ∧
      (if s.env.rateNow.divFirst = true then selBit t.reg0 = o.sel else divRaw t.reg0 = o.div) ∧
      (s.dpQueue = [] ∨ s.result ≠ .programmed → t.p0 = o.p0 ∧ t.p1 = o.p1) ∧
      t.chain = s.chain ∧ t.pos = s.pos + 1 ∧ t.result = s.result := by
  intro o
  have ho := rateOutcome_mem s (2 * (hz : Rat)) s.env.rateNow
  obtain ⟨hexec, hpos, hres⟩ := exec_host_advances (i := .clkSetRate .rgmiiTxEn hz) ha nofun nofun
    (setRate_chooseRate hc h0 hf)
  refine ⟨_, hexec, ho, rateWrites_last _ ho.div_lt s.env.rateNow, fun hq => ?_,
    (interfered_rateWrites (s.chooseRate hz) _ _).chain, by rw [advance_pos, hpos], hres⟩
  obtain ⟨_, hp0, hp1⟩ := keepsParents_rateWrites (s.chooseRate hz) o s.env.rateNow hq
  exact ⟨hp0, hp1⟩

/-! ## TIMING.APPLY among other agents (R109 to R117) -/

/-- The rx field has bit 13 for an rx delay of 2 only (R111). -/
theorem adjEnBit_rxField {rx rxf : Word} (h : rxField rx = some rxf) : adjEnBit rxf = true ↔ rx = 2 := by
  unfold rxField at h
  split at h
  · rename_i h2
    cases h
    exact iff_of_true rfl h2
  · rename_i h2
    split at h <;> cases h
    exact iff_of_false (by decide) h2

theorem adjEnBit_txField (tx : Word) : adjEnBit (txField tx) = false := by
  simp [adjEnBit, txField, fieldPrep, txdlyM]

/-- The delay value has bit 13 where the mode takes the rx field, and that has it (R112). -/
theorem adjEnBit_combine {mode : PhyMode} {tx rx rxf dc : Word} (hrx : rxField rx = some rxf)
    (hdc : combine (txField tx) rxf mode = some dc) :
    adjEnBit dc = true ↔ rx = 2 ∧ (mode = .rgmii ∨ mode = .rgmiiTxid) := by
  have hbit := adjEnBit_rxField hrx
  cases mode <;> cases hdc
  case rgmii =>
    have hor : adjEnBit (txField tx ||| rxf) = (adjEnBit (txField tx) || adjEnBit rxf) :=
      BitVec.getLsbD_or
    simpa [hor, adjEnBit_txField] using hbit
  case rgmiiTxid => simpa using hbit
  case rgmiiRxid => simp [adjEnBit_txField]
  case rgmiiId | rmii => simp [adjEnBit]

/-- Step 4 asks for the adjustment clock exactly where the configuration needs it (R110 to R113). -/
theorem adjEnBit_probe {s : State} {mode : PhyMode} {tx rx rxf dc : Word} (hrx : rxField rx = some rxf)
    (hdc : combine (txField tx) rxf mode = some dc) :
    adjEnBit (s.params.adjCheckOn.probe dc rxf) = true ↔ needsAdjClock s mode rx := by
  unfold needsAdjClock
  cases hcheck : s.params.adjCheckOn with
  | combined => simpa [AdjCheckOn.probe] using adjEnBit_combine hrx hdc
  | rxConfig => simpa [AdjCheckOn.probe] using adjEnBit_rxField hrx

theorem adjCheck_done {s : State} {dc rxf : Word} {k : Nat} (hk : Unfailing (k + 1) s)
    (hadj : adjEnBit (s.params.adjCheckOn.probe dc rxf) = true → s.adjClk = .present) :
    ∃ t, adjCheck dc rxf s = .done t ∧ Unfailing k t ∧ t.chain = s.chain ∧
      (t.adjEnabled = true ↔
        s.adjEnabled = true ∨ adjEnBit (s.params.adjCheckOn.probe dc rxf) = true) := by
  by_cases hp : adjEnBit (s.params.adjCheckOn.probe dc rxf) = true
  · refine ⟨{ s.popFail with adjEnabled := true }, ?_, hk.popFail, rfl, by simp [hp]⟩
    simp [adjCheck, hp, startAdj, hadj hp, hk.now]
  · exact ⟨s, by simp [adjCheck, hp], hk.mono (Nat.le_succ k), rfl, by simp [hp]⟩

theorem enableChain_done {s : State} {n : Nat} (hc : s.chain = .built n) (hf : s.env.failAt 0 = false) :
    ∃ t, enableChain .rgmiiTxEn s = .done t ∧ t.chain = .built (n + 1) ∧
      t.adjEnabled = s.adjEnabled := by
  cases n with
  | zero => exact ⟨_, enableChain_first hc hf, rfl, by simp [State.openGate]⟩
  | succ n => exact ⟨_, enableChain_again hc hf, rfl, rfl⟩

/-- Step 6 of the RGMII family: the rate is set and the chain enabled once more (R115). -/
theorem rgmiiClock_done {s : State} {n : Nat} (hc : s.chain = .built n) (hk : Unfailing 2 s) :
    ∃ t, rgmiiClock s = .done t ∧ t.chain = .built (n + 1) ∧ t.adjEnabled = s.adjEnabled := by
  have hinv : Interfered s ((s.mwEth0 invM 0x00000000).gap 0) :=
    interfered_steady.trans _ _ _ (interfered_mwHeld 0 invM 0 s) (interfered_gap 0 _)
  have hk1 := hk.interfered hinv
  have hset := setRate_ok (hz := Config.txRate) (hinv.chain.trans hc) (by decide) hk1.now
  have hrate := interfered_steady.trans _ _ _
    (interfered_applyRate ((s.mwEth0 invM 0x00000000).gap 0).popFail Config.txRate) (interfered_gap 0 _)
  have hk2 := hk1.popFail.interfered hrate
  obtain ⟨t, ht, hchain, hadj⟩ := enableChain_done
    (hrate.chain.trans (hinv.chain.trans hc)) hk2.now
  refine ⟨t, ?_, hchain, hadj.trans (hrate.adjEnabled.trans hinv.adjEnabled)⟩
  rw [rgmiiClock, hset, done_andThen]
  exact ht

theorem clockStep_done {s : State} {n : Nat} {mode : PhyMode} (hm : ∀ x, mode ≠ .other x)
    (hc : s.chain = .built n) (hk : Unfailing 2 s) :
    ∃ t, clockStep mode s = .done t ∧ t.chain = .built (if mode = .rmii then n else n + 1) ∧
      t.adjEnabled = s.adjEnabled := by
  cases mode with
  | rmii => exact ⟨_, rfl, by simpa using hc, mwEth0_adjEnabled s invM 0x00000800⟩
  | other x => exact absurd rfl (hm x)
  | rgmii | rgmiiRxid | rgmiiId | rgmiiTxid => exact rgmiiClock_done hc hk

/-- Steps 4 to 7 (R113 to R117). -/
theorem timingSteps_done {s : State} {n : Nat} {mode : PhyMode} {dc rxf : Word}
    (hm : ∀ x, mode ≠ .other x) (hc : s.chain = .built n) (hk : Unfailing 3 s)
    (hadj : adjEnBit (s.params.adjCheckOn.probe dc rxf) = true → s.adjClk = .present) :
    ∃ t, timingSteps mode dc rxf s = .done t ∧ refBit t.reg0 = true ∧
      t.chain = .built (if mode = .rmii then n else n + 1) ∧
      (t.adjEnabled = true ↔
        s.adjEnabled = true ∨ adjEnBit (s.params.adjCheckOn.probe dc rxf) = true) := by
  obtain ⟨a, ha, hka, hca, hadja⟩ := adjCheck_done hk hadj
  have hdelay : Interfered a (a.writeDelay dc) := interfered_mwHeld 0 _ dc a
  obtain ⟨b, hb, hcb, hadjb⟩ := clockStep_done hm (hdelay.chain.trans (hca.trans hc))
    (hka.interfered hdelay)
  have href : Interfered b b.writeRef := interfered_mwHeld 0 refM _ b
  refine ⟨b.writeRef, ?_, ?_, href.chain.trans hcb, ?_⟩
  · rw [timingSteps, ha, done_andThen, done_andThen, hb, done_andThen]
  · rw [State.writeRef, mwEth0_reg0, refBit, merge_getLsbD_of_mask _ _ (by rfl)]
    rfl
  · rw [href.adjEnabled, hadjb, hdelay.adjEnabled]
    exact hadja

/-- TIMING.APPLY of a supported mode and a defined rx delay (R109). -/
theorem applyTiming_done {s : State} {n : Nat} {mode : PhyMode} {tx rx : Word}
    (hm : ∀ x, mode ≠ .other x) (hrx : rx = 0 ∨ rx = 2) (hc : s.chain = .built n) (hk : Unfailing 3 s)
    (hadj : needsAdjClock s mode rx → s.adjClk = .present) :
    ∃ t, applyTiming mode tx rx s = .done t ∧ refBit t.reg0 = true ∧
      t.chain = .built (if mode = .rmii then n else n + 1) ∧
      (t.adjEnabled = true ↔ s.adjEnabled = true ∨ needsAdjClock s mode rx) := by
  obtain ⟨rxf, hrxf⟩ : ∃ rxf, rxField rx = some rxf := by
    refine Option.ne_none_iff_exists'.1 (fun h => ?_)
    obtain ⟨h0, h2⟩ := rxField_eq_none.1 h
    exact hrx.elim h0 h2
  obtain ⟨dc, hdc⟩ : ∃ dc, combine (txField tx) rxf mode = some dc := by
    refine Option.ne_none_iff_exists'.1 (fun h => ?_)
    obtain ⟨x, hx⟩ := combine_eq_none.1 h
    exact hm x hx
  have hprobe := adjEnBit_probe (s := s) hrxf hdc
  obtain ⟨t, ht, href, hchain, hadjt⟩ := timingSteps_done (dc := dc) (rxf := rxf) hm hc hk
    (fun h => hadj (hprobe.1 h))
  refine ⟨t, ?_, href, hchain, hadjt.trans (or_congr_right hprobe)⟩
  simp [applyTiming, withChain_built hc, hrxf, hdc, ht, Res.inStage]

/-- TIMING.APPLY completes whatever others do (R54, R142). -/
theorem exec_timingApply_interfered {s : State} {c : Cfg} {n : Nat} (ha : s.agent = .host)
    (hcfg : s.cfg = some c) (hc : s.chain = .built n) (hm : ∀ x, c.mode ≠ .other x)
    (hrx : c.rxDelay = 0 ∨ c.rxDelay = 2) (hadj : needsAdjClock s c.mode c.rxDelay → c.adjClk = .present)
    (hk : Unfailing 3 s) :
    ∃ t, exec .timingApply s = .next t ∧ refBit t.reg0 = true ∧
      t.chain = .built (if c.mode = .rmii then n else n + 1) ∧
      (t.adjEnabled = true ↔ s.adjEnabled = true ∨ needsAdjClock s c.mode c.rxDelay) ∧
      t.pos = s.pos + 1 ∧ t.result = s.result := by
  have hclk : s.adjClk = c.adjClk := by simp [State.adjClk, hcfg]
  obtain ⟨u, hu, href, hchain, hadju⟩ := applyTiming_done (tx := c.txDelay) hm hrx hc hk
    (fun h => hclk.trans (hadj h))
  have hop : opOf .timingApply s = .done u := by simpa [opOf, timingOp, hcfg] using hu
  obtain ⟨hexec, hpos, hres⟩ := exec_host_advances (i := .timingApply) ha nofun nofun hop
  exact ⟨_, hexec, href, hchain, hadju, by rw [advance_pos, hpos], hres⟩

/-! ## ORCH.INIT among other agents (R119 to R122) -/

theorem validateDelay_done {c : Cfg} (h : c.rxDelay = 0 ∨ c.rxDelay = 2) (s : State) :
    validateDelay c s = .done s := if_pos h

/-- The clock lookup ends done, present wherever the clock is needed (R121). -/
theorem acquireAdj_done (c : Cfg) {s : State} {need : Prop}
    (h : s.env.adjNow = .present ∨ s.env.adjNow = .absent ∧ ¬ need) :
    ∃ k held, (need → k = .present) ∧ acquireAdj c s =
      .done { s.popAdj with cfg := some { c with adjClk := k }, adjHeld := held } := by
  rcases h with h | ⟨h, hn⟩
  · exact ⟨.present, true, fun _ => rfl, by simp [acquireAdj, h]⟩
  · exact ⟨.absent, s.adjHeld, fun hneed => absurd hneed hn, by simp [acquireAdj, h]⟩

/-- CHAIN.BUILD, which no other agent gets into, uses up four of the answers (R87). -/
theorem buildChain_unfailing {s : State} {k : Nat} (h0 : s.env.lookupAt 0 = .ok)
    (h1 : s.env.lookupAt 1 = .ok) (hk : Unfailing (4 + k) s) :
    ∃ t, buildChain s = .done t ∧ BuildFrame s t ∧ t.chain = .built 0 ∧ Unfailing k t := by
  obtain ⟨t, ht, hdrawn⟩ := buildChain_ok h0 h1 (fun j hj => hk j (by omega))
  obtain ⟨hframe, hchain⟩ := buildChain_done ht
  have hfails : t.env.fails = s.env.fails := by rw [hframe]
  have hqueue : t.dpQueue = s.dpQueue := by rw [hframe]
  refine ⟨t, ht, hframe, hchain, fun j hj => ?_⟩
  have hans := hk (4 + j) (by rw [hqueue] at hj; omega)
  simpa [Env.failAt, hfails, hdrawn, Nat.add_assoc] using hans

/-- The steps of ORCH.INIT after acquisition, where the environment fails nothing (R122, R142). -/
theorem configure_done {c : Cfg} {s : State} (hm : ∀ x, c.mode ≠ .other x)
    (hrx : c.rxDelay = 0 ∨ c.rxDelay = 2)
    (hadj : s.env.adjNow = .present ∨
      s.env.adjNow = .absent ∧ ¬ needsAdjClock s c.mode c.rxDelay)
    (h0 : s.env.lookupAt 0 = .ok) (h1 : s.env.lookupAt 1 = .ok) (hk : Unfailing 7 s) :
    ∃ t, configure c s = .done t ∧ refBit t.reg0 = true ∧
      t.chain = .built (if c.mode = .rmii then 0 else 1) ∧
      (t.adjEnabled = true ↔ s.adjEnabled = true ∨ needsAdjClock s c.mode c.rxDelay) := by
  obtain ⟨k, held, hclk, hacq⟩ := acquireAdj_done c hadj
  obtain ⟨b, hb, hframe, hchain, hkb⟩ := buildChain_unfailing (k := 3)
    (s := { s.popAdj with cfg := some { c with adjClk := k }, adjHeld := held }) h0 h1 hk
  obtain ⟨v, _, hmode⟩ := applyPhyMode_ok hm c.family b
  have hw : Interfered b (b.mwEth0 (modeMask c.family) v) := interfered_mwHeld 0 _ v b
  have hparams : b.params = s.params := by rw [hframe]; rfl
  have hadjb : b.adjEnabled = s.adjEnabled := by rw [hframe]; rfl
  have hadjclk : (b.mwEth0 (modeMask c.family) v).adjClk = k := by
    have hcfgb : b.cfg = some { c with adjClk := k } := by rw [hframe]
    simp [State.adjClk, hcfgb]
  have hneed : needsAdjClock (b.mwEth0 (modeMask c.family) v) c.mode c.rxDelay ↔
      needsAdjClock s c.mode c.rxDelay := by
    rw [needsAdjClock, needsAdjClock, hw.params, hparams]
  obtain ⟨t, ht, href, hct, hadjt⟩ := applyTiming_done (tx := c.txDelay) hm hrx
    (hw.chain.trans hchain) (hkb.interfered hw) (fun h => hadjclk.trans (hclk (hneed.1 h)))
  refine ⟨t, ?_, href, hct, ?_⟩
  · rw [configure, validateDelay_done hrx, done_andThen, hacq, done_andThen, hb, done_andThen, hmode,
      done_andThen, ht]
  · rw [hadjt, hneed, hw.adjEnabled, hadjb]

/-- ORCH.INIT completes whatever others do, and ends Programmed (R54, R142). -/
theorem exec_orchInit_interfered {s : State} {mode : PhyMode} (ha : s.agent = .host)
    (hidle : s.result = .idle) (hfam : s.desc.namesFamily = true) (hmode : phyModeOf s.desc.mode = mode)
    (hm : ∀ x, mode ≠ .other x) (hrx : s.desc.rxDelay.getD 0 = 0 ∨ s.desc.rxDelay.getD 0 = 2)
    (hadj : s.env.adjNow = .present ∨
      s.env.adjNow = .absent ∧ ¬ needsAdjClock s mode (s.desc.rxDelay.getD 0))
    (h0 : s.env.lookupAt 0 = .ok) (h1 : s.env.lookupAt 1 = .ok) (hk : Unfailing 7 s) :
    ∃ t, exec .orchInit s = .next t ∧ t.result = .programmed ∧ refBit t.reg0 = true ∧
      t.chain = .built (if mode = .rmii then 0 else 1) ∧
      (t.adjEnabled = true ↔ s.adjEnabled = true ∨ needsAdjClock s mode (s.desc.rxDelay.getD 0)) ∧
      t.pos = s.pos + 1 := by
  subst hmode
  obtain ⟨c, hacq⟩ : ∃ c, acquire s.params.family s.desc = some c := ⟨_, if_pos hfam⟩
  have hc := acquire_eq_some hacq
  have hcm : c.mode = phyModeOf s.desc.mode := by rw [hc]
  have hcrx : c.rxDelay = s.desc.rxDelay.getD 0 := by rw [hc]
  rw [← hcm] at hm hadj ⊢
  rw [← hcrx] at hrx hadj ⊢
  obtain ⟨u, hu, href, hchain, hadju⟩ := configure_done (c := c)
    (s := { s with result := .running, cfg := some c }) hm hrx hadj h0 h1 hk
  have hrun : SameRun { s with result := .running, cfg := some c } u := by
    simpa [hu] using configure_sameRun (c := c) (s := { s with result := .running, cfg := some c }) rfl
  have hop : opOf .orchInit s = .done { u with result := .programmed } := by
    simp [opOf, orchInit, hidle, hacq, hu]
  refine ⟨_, exec_host_done ha nofun hop, rfl, href, hchain, hadju, ?_⟩
  rw [complete_pos, if_pos (by exact hrun.agent.trans ha)]
  exact congrArg (· + 1) hrun.pos

/-! ## The releases among other agents (R104, R132) -/

section
variable (held m v : Word) (s : State)

@[simp] theorem gap_par0Held : (s.gap held).par0Held = s.par0Held := by rw [(gap_spec held s).1]
@[simp] theorem gap_par1Held : (s.gap held).par1Held = s.par1Held := by rw [(gap_spec held s).1]
@[simp] theorem gap_adjHeld : (s.gap held).adjHeld = s.adjHeld := by rw [(gap_spec held s).1]

@[simp] theorem mwEth0_par0Held : (s.mwEth0 m v).par0Held = s.par0Held := by
  rw [State.mwEth0, (mwHeld_spec 0 m v s).1]
@[simp] theorem mwEth0_par1Held : (s.mwEth0 m v).par1Held = s.par1Held := by
  rw [State.mwEth0, (mwHeld_spec 0 m v s).1]
@[simp] theorem mwEth0_adjHeld : (s.mwEth0 m v).adjHeld = s.adjHeld := by
  rw [State.mwEth0, (mwHeld_spec 0 m v s).1]

end

/-- An enabled chain dropped: the gate is closed, a gap follows, and the chain is gone (R104). -/
theorem dropChain_succ (s : State) (n : Nat) :
    s.dropChain (n + 1) = { (s.disableTo 0).gap 0 with chain := .none, stages := [] } := by
  rw [State.dropChain, gateOff_succ]

/-- CHAIN.RELEASE of an enabled chain completes whatever others do (R54, R104). -/
theorem exec_chainRelease_interfered {s : State} {n : Nat} (ha : s.agent = .host)
    (hc : s.chain = .built (n + 1)) :
    ∃ t, exec .chainRelease s = .next t ∧ t.reg0 = ((s.disableTo 0).gap 0).reg0 ∧ t.chain = .none ∧
      t.stages = [] ∧ t.adjEnabled = s.adjEnabled ∧ t.par0Held = s.par0Held ∧
      t.par1Held = s.par1Held ∧ t.adjHeld = s.adjHeld ∧ t.pos = s.pos + 1 ∧ t.result = s.result := by
  have hop : opOf .chainRelease s =
      .done { (s.disableTo 0).gap 0 with chain := .none, stages := [] } := by
    rw [← dropChain_succ s n]
    exact withChain_built hc _
  obtain ⟨hexec, hpos, hres⟩ := exec_host_advances (i := .chainRelease) ha nofun nofun hop
  refine ⟨_, hexec, rfl, rfl, rfl, ?_, ?_, ?_, ?_, by rw [advance_pos, hpos], hres⟩
  all_goals simp [State.disableTo]

/-- The release of an enabled chain drops it and lets go of the handles (R132). -/
theorem releaseResources_built {s : State} {n : Nat} (hc : s.chain = .built (n + 1)) :
    s.releaseResources = { (s.disableTo 0).gap 0 with
      chain := .none
      stages := []
      par0Held := false
      par1Held := false
      adjHeld := false
      adjEnabled := false } := by
  rw [State.releaseResources, hc]
  dsimp only
  rw [dropChain_succ]

theorem exec_orchRelease {s : State} (ha : s.agent = .host) (hf : s.result.finished = true) :
    exec .orchRelease s = .next s.releaseResources.backToIdle := by
  simp [exec, execOrchRelease, ha, hf]

/-- ORCH.RELEASE of an enabled chain completes whatever others do (R54, R132). -/
theorem exec_orchRelease_interfered {s : State} {n : Nat} (ha : s.agent = .host)
    (hc : s.chain = .built (n + 1)) (hf : s.result = .programmed ∨ ∃ k g, s.result = .failed k g) :
    ∃ t, exec .orchRelease s = .next t ∧ t.reg0 = ((s.disableTo 0).gap 0).reg0 ∧ t.chain = .none ∧
      t.stages = [] ∧ t.adjEnabled = false ∧ t.par0Held = false ∧ t.par1Held = false ∧
      t.adjHeld = false ∧ t.result = .idle ∧ t.pos = 0 ∧ t.stopped = false ∧ t.cfg = s.cfg := by
  have hfin : s.result.finished = true := by
    rcases hf with hf | ⟨k, g, hf⟩ <;> rw [hf] <;> rfl
  have hexec := exec_orchRelease ha hfin
  rw [releaseResources_built hc] at hexec
  refine ⟨_, hexec, rfl, rfl, rfl, rfl, rfl, rfl, rfl, rfl, rfl, rfl, ?_⟩
  simp [State.disableTo]

/-- Settles O48. -/
theorem sequencesCompleteUnderInterference : Obligations.SequencesCompleteUnderInterference := by
  intro s ha
  refine ⟨fun n hz hc h0 hf => exec_clkSetRate_interfered ha hc h0 hf,
    fun c n hcfg hc hm hrx hadj hk => exec_timingApply_interfered ha hcfg hc hm hrx hadj hk,
    fun mode hidle hfam hmode hm hrx hadj h0 h1 hk =>
      exec_orchInit_interfered ha hidle hfam hmode hm hrx hadj h0 h1 hk,
    fun n hc => ⟨disableTo_zero_reg0 s, exec_chainRelease_interfered ha hc,
      fun hf => exec_orchRelease_interfered ha hc hf⟩⟩

end Sys2Proof.Machine

/-! # The encoding family (30_encoding.md): operation words and their operations, the fields of a
PRG_ETH0 word, and the clock operations that name a node -/

namespace Sys2Proof

/-! ## Operation words (R61, R62, R76, R78, R79) -/

/-- An immediate of 32 bits and its word name each other (R78). -/
theorem immWord_eq_some {v : Nat} {w : Word} : immWord v = some w ↔ w.toNat = v := by
  unfold immWord
  split
  · rename_i hv
    rw [Option.some_inj, ← BitVec.toNat_inj, BitVec.toNat_ofNat, Nat.mod_eq_of_lt hv, eq_comm]
  · have hlt := w.isLt
    exact iff_of_false nofun (by omega)

/-- A row's word is its mask and its match (R76). -/
theorem encode_row {r : FieldRow} (h : r ∈ fieldRows) : encode r.instr = .prgEth0 r.mask r.mtch := by
  fin_cases h <;> rfl

/-- No other row comes before a row in the table with its mask and match (R76). -/
theorem decode_row {r : FieldRow} (h : r ∈ fieldRows) :
    decode (.prgEth0 r.mask r.mtch) = .ok r.instr := by
  fin_cases h <;> rfl

theorem decode_mw (off : Nat) (mask value : Word) :
    decode (encode (.mw off mask value)) = .ok (.mw off mask value) := by
  simp only [encode, decode, decodePseudo, immWord_eq_some.2 rfl]

/-- Settles O1: MW turns its two words into immediates and back; every other operand is in the word as
it is. -/
theorem decodeOfEncode : Obligations.DecodeOfEncode := by
  intro i
  cases i
  case mw off mask value => exact decode_mw off mask value
  all_goals rfl

/-- A pseudo-operation's name and operands are what its word is made of (R79; log 14). -/
theorem encode_of_decodePseudo {name : PseudoName} {args : List Operand} {i : Instr}
    (h : decodePseudo name args = some i) : encode i = .pseudo name args := by
  unfold decodePseudo at h
  split at h
  case h_1 off mask value =>
    split at h
    · rename_i hm hv
      cases h
      rw [encode, immWord_eq_some.1 hm, immWord_eq_some.1 hv]
    · cases h
  all_goals cases h
  all_goals rfl

theorem encode_of_decode_bus {off width : Nat} {data : Word} {i : Instr} :
    (decode (.busRead off width) = .ok i → encode i = .busRead off width) ∧
      (decode (.busWrite off width data) = .ok i → encode i = .busWrite off width data) := by
  by_cases hbad : width ≠ 32 ∨ (off ≠ 0 ∧ off ≠ 4)
  · obtain ⟨hr, hw⟩ := Machine.decode_bus_error data hbad
    rw [hr, hw]
    exact ⟨nofun, nofun⟩
  · obtain ⟨rfl, rfl | rfl⟩ : width = 32 ∧ (off = 0 ∨ off = 4) := by omega
    all_goals exact ⟨by rintro ⟨⟩; rfl, by rintro ⟨⟩; rfl⟩

/-- A mask and match that decode are those of a row of the table (R76). -/
theorem encode_of_decode_prgEth0 {mask mtch : Word} {i : Instr}
    (h : decode (.prgEth0 mask mtch) = .ok i) : encode i = .prgEth0 mask mtch := by
  simp only [decode] at h
  split at h
  · rename_i r hr
    cases h
    have hkey : r.mask = mask ∧ r.mtch = mtch := by simpa using List.find?_some hr
    rw [encode_row (List.mem_of_find?_eq_some hr), hkey.1, hkey.2]
  · cases h

/-- Settles O2, format by format. -/
theorem encodeOfDecode : Obligations.EncodeOfDecode := by
  intro w i h
  cases w with
  | busRead off width => exact (encode_of_decode_bus (data := 0)).1 h
  | busWrite off width data => exact encode_of_decode_bus.2 h
  | prgEth0 mask mtch => exact encode_of_decode_prgEth0 h
  | pseudo name args =>
    simp only [decode] at h
    split at h
    · rename_i hp
      cases h
      exact encode_of_decodePseudo hp
    · cases h

/-- Settles O6: each word is the word of the operation it stands for. -/
theorem sampleWordsDecode : Obligations.SampleWordsDecode :=
  ⟨decodeOfEncode .rdEth1, decodeOfEncode (.wrEth0 0x21), decodeOfEncode .clkM250Div4,
    decodeOfEncode .extPhyModeRmii, decodeOfEncode .rgmiiModeRgmii,
    decodeOfEncode (.clkSetDiv .m250Div 4)⟩

/-! ## Fields (R65) -/

/-- The mask of a field has the field's bits and no other (R65). -/
theorem getLsbD_fieldMask (n lo i : Nat) :
    (fieldMask n lo).getLsbD i = decide (i < 32 ∧ lo ≤ i ∧ i < lo + n) := by
  have hpow : (1#32 <<< n) = BitVec.ofNat 32 (2 ^ n) := by
    apply BitVec.eq_of_toNat_eq
    simp [Nat.shiftLeft_eq]
  have hlow : (1#32 <<< n) - 1 = BitVec.ofNat 32 (2 ^ n - 1) := by
    rw [hpow]
    exact BitVec.ofNat_sub_ofNat_of_le _ _ (by norm_num) Nat.one_le_two_pow
  rw [fieldMask, hlow, BitVec.getLsbD_shiftLeft, BitVec.getLsbD_ofNat, Nat.testBit_two_pow_sub_one]
  grind

theorem getLsbD_fieldGet (mask w : Word) (lo i : Nat) :
    (fieldGet mask lo w).getLsbD i = (w.getLsbD (lo + i) && mask.getLsbD (lo + i)) := by
  simp [fieldGet]

theorem getLsbD_fieldPrep (mask v : Word) (lo i : Nat) :
    (fieldPrep mask lo v).getLsbD i =
      (decide (i < 32 ∧ lo ≤ i) && v.getLsbD (i - lo) && mask.getLsbD i) := by
  simp only [fieldPrep, BitVec.getLsbD_and, BitVec.getLsbD_shiftLeft]
  grind

/-- FIELD_PREP sets no bit outside its mask (R65). -/
theorem fieldPrep_outside (mask v : Word) (lo : Nat) : fieldPrep mask lo v &&& ~~~mask = 0 := by
  rw [fieldPrep, BitVec.and_assoc, BitVec.and_not_self]
  exact BitVec.and_zero

/-- A value put into a field of the word reads back truncated to the field's width (R65). -/
theorem fieldGet_fieldPrep {n lo : Nat} (h : n + lo ≤ 32) (v : Word) :
    (fieldGet (fieldMask n lo) lo (fieldPrep (fieldMask n lo) lo v)).toNat = v.toNat % 2 ^ n := by
  apply Nat.eq_of_testBit_eq
  intro i
  rw [Nat.testBit_mod_two_pow, BitVec.testBit_toNat, BitVec.testBit_toNat, getLsbD_fieldGet,
    getLsbD_fieldPrep, getLsbD_fieldMask, Nat.add_sub_cancel_left]
  grind

/-- Settles O5. -/
theorem fieldPrepThenGet : Obligations.FieldPrepThenGet :=
  ⟨fun mask lo v => fieldPrep_outside mask v lo, fun _ _ v h => fieldGet_fieldPrep h v⟩

/-! ## The decoder of a PRG_ETH0 word drops no bit (R63, R64, R77) -/

/-- A field taken out of the word and put back to its place is the word under the field's mask. -/
theorem field_putBack {m : Word} {n lo k : Nat} (hm : m = fieldMask n lo) (hk : n ≤ k) (w : Word) :
    ((fieldGet m lo w).setWidth k).setWidth 32 <<< lo = w &&& m := by
  subst hm
  apply BitVec.eq_of_getLsbD_eq
  intro i hi
  simp only [BitVec.getLsbD_shiftLeft, BitVec.getLsbD_setWidth, BitVec.getLsbD_and, getLsbD_fieldGet,
    getLsbD_fieldMask]
  grind

/-- A single bit put back to its place. -/
theorem bit_putBack (w : Word) (k : Nat) :
    (BitVec.ofBool (w.getLsbD k)).setWidth 32 <<< k = w &&& fieldMask 1 k := by
  apply BitVec.eq_of_getLsbD_eq
  intro i hi
  simp only [BitVec.getLsbD_shiftLeft, BitVec.getLsbD_setWidth, BitVec.getLsbD_and,
    BitVec.getLsbD_ofBool, getLsbD_fieldMask]
  grind

/-- The lowest bits of the record of either family are bits [2:0] of the word (R63, R64, R77). -/
theorem modeBits_putBack (fam : Family) (w : Word) :
    (decodeEth0 fam w).modeBits.setWidth 32 |||
      ((decodeEth0 fam w).legacyRsvd.getD 0).setWidth 32 <<< 1 = w &&& fieldMask 3 0 := by
  cases fam with
  | legacy =>
    have hmode := field_putBack (m := rgmiiModeM) (n := 1) (lo := 0) (k := 3) rfl (by omega) w
    have hrsvd := field_putBack (n := 2) (lo := 1) rfl le_rfl w
    rw [BitVec.shiftLeft_zero] at hmode
    simp only [decodeEth0, Option.getD_some, hmode, hrsvd, ← BitVec.and_or_distrib_left]
    rfl
  | extMode =>
    have hmode := field_putBack (m := extPhyModeM) (n := 3) (lo := 0) rfl le_rfl w
    rw [BitVec.shiftLeft_zero] at hmode
    simp only [decodeEth0, Option.getD_none, hmode]
    exact BitVec.or_zero

/-- Settles O3: each field goes back to where it was, and the masks leave no bit out. -/
theorem eth0DecodeDropsNoBit : Obligations.Eth0DecodeDropsNoBit := by
  intro fam w
  have htxdly := field_putBack (m := txdlyM) (n := 2) (lo := 5) rfl le_rfl w
  have hdiv := field_putBack (m := divM) (n := 3) (lo := 7) rfl le_rfl w
  have hdelay := field_putBack (m := adjDelayM) (n := 5) (lo := 15) rfl le_rfl w
  have hskew := field_putBack (m := adjSkewM) (n := 5) (lo := 20) rfl le_rfl w
  have hrsvd := field_putBack (n := 7) (lo := 25) rfl le_rfl w
  rw [assembleEth0, modeBits_putBack]
  simp only [decodeEth0, bit_putBack, htxdly, hdiv, hdelay, hskew, hrsvd, ← BitVec.and_or_distrib_left]
  exact BitVec.and_allOnes

/-! ## The rows read the word (R63, R64, R76) -/

/-- The fields of either family leave no bit out (R63, R64). -/
theorem fieldsOf_cover (fam : Family) : (fieldsOf fam).foldl (· ||| ·) 0 = 0xFFFFFFFF := by
  cases fam <;> rfl

theorem mem_readFields {fam : Family} {w mask : Word} {reading : FieldReading} :
    (mask, reading) ∈ readFields fam w ↔ mask ∈ fieldsOf fam ∧ reading = readField fam mask w := by
  simp only [readFields, List.mem_map, Prod.mk.injEq]
  constructor
  · rintro ⟨_, hm, rfl, rfl⟩
    exact ⟨hm, rfl⟩
  · rintro ⟨hm, rfl⟩
    exact ⟨mask, hm, rfl, rfl⟩

/-- What a field reads as: a row of the family that matches the word, or the bits where none does. -/
theorem readField_cases (fam : Family) (mask w : Word) :
    (∃ r ∈ fieldRows, r.inFamily fam = true ∧ r.mask = mask ∧ w &&& mask = r.mtch ∧
      readField fam mask w = .row r.instr) ∨
    ((∀ r ∈ fieldRows, r.inFamily fam = true → r.mask = mask → w &&& mask ≠ r.mtch) ∧
      readField fam mask w = .reserved (w &&& mask)) := by
  unfold readField
  split
  · rename_i r hr
    have hkey : (r.inFamily fam = true ∧ r.mask = mask) ∧ w &&& mask = r.mtch := by
      simpa using List.find?_some hr
    exact .inl ⟨r, List.mem_of_find?_eq_some hr, hkey.1.1, hkey.1.2, hkey.2, rfl⟩
  · rename_i hnone
    refine .inr ⟨fun r hr hfam hmask hmtch => ?_, rfl⟩
    have hno := List.find?_eq_none.1 hnone r hr
    simp [hfam, hmask, hmtch] at hno

/-- A row of the family that matches is the one read, since no other has its mask and match. -/
theorem readField_of_row {fam : Family} {w : Word} {r : FieldRow} (hr : r ∈ fieldRows)
    (hfam : r.inFamily fam = true) (hw : w &&& r.mask = r.mtch) :
    readField fam r.mask w = .row r.instr := by
  rcases readField_cases fam r.mask w with ⟨r', hr', _, hmask, hmtch, hread⟩ | ⟨hno, _⟩
  · have hdec := decode_row hr'
    rw [hmask, ← hmtch, hw, decode_row hr] at hdec
    rw [hread, Except.ok.inj hdec]
  · exact absurd hw (hno r hr hfam rfl)

theorem readField_reserved {fam : Family} {mask w : Word}
    (h : ∀ r ∈ fieldRows, r.inFamily fam = true → r.mask = mask → w &&& mask ≠ r.mtch) :
    readField fam mask w = .reserved (w &&& mask) := by
  rcases readField_cases fam mask w with ⟨r, hr, hfam, hmask, hmtch, _⟩ | ⟨_, hread⟩
  · exact absurd hmtch (h r hr hfam hmask)
  · exact hread

/-- The undescribed bits have no row (R63, R64). -/
theorem readField_undescribed (fam : Family) {mask : Word} (h : mask ∉ fieldRows.map (·.mask)) (w : Word) :
    readField fam mask w = .reserved (w &&& mask) :=
  readField_reserved fun _ hr _ hmask => absurd (hmask ▸ List.mem_map_of_mem hr) h

/-- RGMII_MODE is one bit, and both its values have a row (R66). -/
theorem readField_rgmiiMode (w : Word) : readField .legacy rgmiiModeM w =
    .row (if w &&& 1 = 1 then .rgmiiModeRgmii else .rgmiiModeRmii) := by
  have hbit : w &&& 1 = (BitVec.ofBool (w.getLsbD 0)).setWidth 32 :=
    BitVec.and_one_eq_setWidth_ofBool_getLsbD
  cases hb : w.getLsbD 0 <;> rw [hb] at hbit <;> rw [hbit]
  case true =>
    exact readField_of_row (r := ⟨some .legacy, rgmiiModeM, 1, .rgmiiModeRgmii⟩) (by decide) rfl hbit
  case false =>
    exact readField_of_row (r := ⟨some .legacy, rgmiiModeM, 0, .rgmiiModeRmii⟩) (by decide) rfl hbit

/-- EXT_PHY_MODE has a row for 1 and for 4 only (R67, R74). -/
theorem readField_extPhyMode (w : Word) : readField .extMode extPhyModeM w =
    if w &&& 7 = 1 then .row .extPhyModeRgmii
    else if w &&& 7 = 4 then .row .extPhyModeRmii else .reserved (w &&& 7) := by
  split
  · rename_i h
    exact readField_of_row (r := ⟨some .extMode, extPhyModeM, 1, .extPhyModeRgmii⟩) (by decide) rfl h
  · split
    · rename_i h
      exact readField_of_row (r := ⟨some .extMode, extPhyModeM, 4, .extPhyModeRmii⟩) (by decide) rfl h
    · rename_i h1 h4
      have hrows : ∀ r ∈ fieldRows, r.mask = extPhyModeM → r.mtch = 1 ∨ r.mtch = 4 := by decide
      refine readField_reserved fun r hr _ hmask hmtch => ?_
      rcases hrows r hr hmask with h | h
      · exact h1 (hmtch.trans h)
      · exact h4 (hmtch.trans h)

/-- Settles O4. -/
theorem rowsReadTheWord : Obligations.RowsReadTheWord := by
  intro fam w
  refine ⟨fieldsOf_cover fam, fun mask reading h => ?_, ?_, ?_, ?_, ?_⟩
  · obtain ⟨_, rfl⟩ := mem_readFields.1 h
    exact readField_cases fam mask w
  · exact mem_readFields.2 ⟨by cases fam <;> decide, (readField_undescribed fam (by decide) w).symm⟩
  · exact mem_readFields.2 ⟨by cases fam <;> decide, (readField_undescribed fam (by decide) w).symm⟩
  · rintro rfl
    exact ⟨mem_readFields.2 ⟨by decide, (readField_rgmiiMode w).symm⟩,
      mem_readFields.2 ⟨by decide, (readField_undescribed .legacy (by decide) w).symm⟩⟩
  · rintro rfl
    exact mem_readFields.2 ⟨by decide, (readField_extPhyMode w).symm⟩

end Sys2Proof

namespace Sys2Proof.Machine

/-! ## The select and the divider read back (R68, R70, R89) -/

theorem selBit_afterMw (s : State) (v : Word) : selBit (s.afterMw 0x10 v).reg0 = v.getLsbD 4 :=
  afterMw_getLsbD s v (m := selM) rfl

theorem divRaw_afterMw (s : State) {d : Nat} (h : d < 8) :
    divRaw (s.afterMw 0x380 (BitVec.ofNat 32 (128 * d))).reg0 = d := by
  rw [← divField_eq h]
  exact divRaw_merge s.reg0 h

/-- The divisor the silicon applies: the raw value, or DIV_LOW_HW where it names no divisor (R89). -/
theorem hwDiv_eq {v : Nat} (h : v < 8) : hwDiv v = if v < 2 then Config.divLowHw else v := by
  unfold hwDiv
  by_cases hv : v < 2
  · rw [if_pos hv, if_neg (by rw [mem_divisors]; omega)]
  · rw [if_neg hv, if_pos (by rw [mem_divisors]; omega)]

/-- Settles O20. -/
theorem clockRowsSetSelectAndDivisor : Obligations.ClockRowsSetSelectAndDivisor := by
  intro s h
  have hrow : ∀ m v, fieldWrite none m v s = .next (s.afterMw m v).advance := fieldWrite_alone h rfl
  exact ⟨⟨hrow _ _, selBit_afterMw s 0x00⟩, ⟨hrow _ _, selBit_afterMw s 0x10⟩,
    ⟨hrow _ _, hrow _ _, hrow _ _, hrow _ _, hrow _ _, hrow _ _, hrow _ _, hrow _ _⟩,
    fun _ hd => ⟨divRaw_afterMw s hd, swDiv_eq hd, hwDiv_eq hd⟩⟩

/-! ## How an operation of HOST ends: one masked write alone, and a raise (R42, R85, R131) -/

/-- Alone, an operation of HOST that is one masked write leaves what that leaves, and advances. -/
theorem exec_oneMw_alone {i : Instr} {s : State} {m v : Word} (h : HostAlone s) (hi : i ≠ .orchRelease)
    (hop : opOf i s = .done (s.mwEth0 m v)) : exec i s = .next (s.afterMw m v).advance := by
  rw [mwEth0_alone h] at hop
  rw [exec_host_done h.1 hi hop, complete_host (s := s.afterMw m v) h.1]

/-- A raise of HOST is the result, and stops the list. -/
theorem exec_host_raised {i : Instr} {s u : State} {k : ErrKind} {g : Stage} (ha : s.agent = .host)
    (hi : i ≠ .orchRelease) (hop : opOf i s = .raised k g u) (hu : u.agent = s.agent) :
    exec i s = .next (u.failedWith k g) := by
  rw [exec_host ha hi, hop, Res.settle, takeRaise_host (hu.trans ha)]

/-! ## The clock operations that take one node (R79; log 25) -/

/-- A clock operation that takes the node `takes`: another node is refused before a missing chain is. -/
def onNode (takes node : Node) (s : State) (op : Nat → Res) : Res :=
  if node ≠ takes then .refused (.wrongNode node) else withChain s op

section
variable {i : Instr} {s : State} {takes node : Node} {op : Nat → Res} (ha : s.agent = .host)
  (hi : i ≠ .orchRelease)
include ha hi

theorem exec_wrongNode (hop : opOf i s = onNode takes node s op) (hn : node ≠ takes) :
    exec i s = .refused (.wrongNode node) :=
  exec_host_refused ha hi (hop.trans (if_pos hn))

theorem exec_noChain (hop : opOf i s = onNode takes takes s op) (hc : s.chain = .none) :
    exec i s = .refused .noChain := by
  rw [onNode, if_neg (not_not.2 rfl), withChain_none hc] at hop
  exact exec_host_refused ha hi hop

/-- With a chain, the operation itself decides. -/
theorem exec_chain_refused {r : Refusal} (hop : opOf i s = onNode takes takes s op)
    (hc : s.chain ≠ .none) (hr : ∀ n, s.chain = .built n → op n = .refused r) :
    exec i s = .refused r := by
  cases h : s.chain with
  | none => exact absurd h hc
  | built n =>
    rw [onNode, if_neg (not_not.2 rfl), withChain_built h, hr n h] at hop
    exact exec_host_refused ha hi hop

end

/-! ## CLK.SET_PARENT and CLK.SET_DIV (R96, R97) -/

/-- Settles O26. -/
theorem setParentWritesSelect : Obligations.SetParentWritesSelect := by
  refine ⟨fun s n i h hc hi => ⟨?_, ?_⟩, fun s node i ha => ⟨?_, ?_, fun hc h2 => ?_⟩⟩
  · rw [← selField_eq hi]
    exact exec_oneMw_alone h nofun (setParent_ok hc hi)
  · rw [selBit_afterMw]
    interval_cases i <;> rfl
  · exact exec_wrongNode ha nofun rfl
  · exact exec_noChain ha nofun rfl
  · exact exec_chain_refused (i := .clkSetParent .m250Sel i) (takes := .m250Sel) ha nofun rfl hc
      (fun _ _ => if_neg (by omega))

/-- Settles O27. -/
theorem setDivWritesDivisor : Obligations.SetDivWritesDivisor := by
  refine ⟨fun s n d h hc h2 h7 => ?_, fun s node d ha => ⟨?_, ?_, fun hc hd => ?_⟩⟩
  · have hd : d < 8 := by omega
    refine ⟨?_, divRaw_afterMw s hd⟩
    rw [← divField_eq hd]
    exact exec_oneMw_alone h nofun (setDiv_ok hc ⟨h2, h7⟩)
  · exact exec_wrongNode ha nofun rfl
  · exact exec_noChain ha nofun rfl
  · have hd' : d ∉ Config.divisors := by rw [mem_divisors]; omega
    exact exec_chain_refused (i := .clkSetDiv .m250Div d) (takes := .m250Div) ha nofun rfl hc
      (fun _ _ => if_neg hd')

/-! ## CLK.SET_RATE that fails (R98, R140) -/

/-- A raise in a request of DATAPATH goes to DATAPATH only (R140). -/
theorem takeRaise_datapath {s : State} (ha : s.agent = .datapath) (k : ErrKind) (g : Stage) :
    s.takeRaise k g = { s with dpError := some k } := by
  simp [State.takeRaise, ha]

/-- Settles O30. -/
theorem rateSetFailureChangesNoRegister : Obligations.RateSetFailureChangesNoRegister := by
  refine ⟨fun s n hz hc h0 hf => ⟨fun ha => ?_, fun ha hp => ?_⟩,
    fun s node hz ha => ⟨?_, ?_, fun hc => ?_⟩⟩
  · exact exec_host_raised (i := .clkSetRate .rgmiiTxEn hz) ha nofun (setRate_fail hc h0 hf) rfl
  · rw [exec_clkSetRate_datapath ha hp, setRate_fail hc h0 hf, Res.settle,
      takeRaise_datapath (s := s.popFail) ha]
    rfl
  · exact exec_wrongNode ha nofun rfl
  · exact exec_noChain ha nofun rfl
  · exact exec_chain_refused (i := .clkSetRate .rgmiiTxEn 0) (takes := .rgmiiTxEn) ha nofun rfl hc
      (fun _ _ => if_pos rfl)

/-! ## CLK.ENABLE (R101) -/

/-- Alone, the first enable writes the gate bit 1 and has the parents run. -/
theorem openGate_alone {s : State} (h : HostAlone s) :
    s.openGate = { s.afterMw 0x00000400 0x00000400 with run0 := true, run1 := true } := by
  have h' : HostAlone { s with run0 := true, run1 := true } := ⟨h.1, h.2.mono rfl le_rfl rfl⟩
  rw [State.openGate, mwEth0_alone h']
  rfl

/-- Settles O33: each way CLK.ENABLE can go, by its count and by the answer drawn. -/
theorem enableOpensGateOnce : Obligations.EnableOpensGateOnce := by
  refine ⟨fun s h hc hf => ?_, fun s n ha hc hf => ?_, fun s n ha hc hf => ?_,
    fun s node ha => ⟨?_, ?_⟩⟩
  · have h' : HostAlone s.popFail := ⟨h.1, h.2.mono rfl le_rfl rfl⟩
    have hop : opOf (.clkEnable .rgmiiTxEn) s = _ := enableChain_first hc hf
    rw [openGate_alone h'] at hop
    exact (exec_host_advances (i := .clkEnable .rgmiiTxEn) h.1 nofun nofun hop).1
  · exact (exec_host_advances (i := .clkEnable .rgmiiTxEn) ha nofun nofun (enableChain_again hc hf)).1
  · exact exec_host_raised (i := .clkEnable .rgmiiTxEn) ha nofun (enableChain_fail hc hf) rfl
  · exact exec_wrongNode ha nofun rfl
  · exact exec_noChain ha nofun rfl

/-! ## CLK.DISABLE (R102) -/

theorem disableChain_earlier {s : State} {n : Nat} (hc : s.chain = .built (n + 2)) :
    disableChain .rgmiiTxEn s = .done { s with chain := .built (n + 1) } := by
  simp [disableChain, withChain_built hc, State.disableTo]

/-- Alone, the last disable writes the gate bit 0 and draws whether the parents go on running. -/
theorem disableTo_zero_alone {s : State} (h : HostAlone s) :
    s.disableTo 0 = { s.afterMw 0x00000400 0x00000000 with
      run0 := s.env.parentsNow.1
      run1 := s.env.parentsNow.2
      chain := .built 0
      env := { s.env with nParents := s.env.nParents + 1, nGap := s.env.nGap + 2 } } := by
  have h' : HostAlone { s with chain := .built 0 } := ⟨h.1, h.2.mono rfl le_rfl rfl⟩
  show (({ s with chain := .built 0 } : State).mwEth0 gateM 0x00000000).releaseParents = _
  rw [mwEth0_alone h']
  rfl

/-- Whatever others do in the gaps, the draw of the parents is the issuer's (R54, R102). -/
theorem disableTo_zero_run (s : State) :
    (s.disableTo 0).run0 = s.env.parentsNow.1 ∧ (s.disableTo 0).run1 = s.env.parentsNow.2 := by
  have henv : (({ s with chain := .built 0 } : State).mwEth0 gateM 0x00000000).env.parentsNow =
      s.env.parentsNow := by
    rw [State.mwEth0, (mwHeld_spec 0 gateM 0x00000000 _).1]
    rfl
  exact ⟨congrArg Prod.fst henv, congrArg Prod.snd henv⟩

/-- An environment that answers the coming draw of the parents, and in whose gaps nobody acts. -/
def Env.answeringParents (r0 r1 : Bool) : Env := { Env.free with parents := [(r0, r1)] }

@[simp] theorem answeringParents_parentsNow (r0 r1 : Bool) :
    (Env.answeringParents r0 r1).parentsNow = (r0, r1) := rfl

/-- Settles O34. -/
theorem lastDisableClosesGate : Obligations.LastDisableClosesGate := by
  refine ⟨fun s h hc => ?_, fun s r0 r1 ha hc => ?_, fun s n ha hc => ?_,
    fun s node ha => ⟨?_, ?_, fun hc => ?_⟩⟩
  · have hop : opOf (.clkDisable .rgmiiTxEn) s = _ := disableChain_last hc
    rw [disableTo_zero_alone h] at hop
    refine ⟨_, _, _, (exec_host_advances (i := .clkDisable .rgmiiTxEn) h.1 nofun nofun hop).1, rfl,
      rgmiiTxClk_stopped ?_⟩
    exact afterMw_getLsbD s 0x00000000 (m := gateM) (i := 10) rfl
  · obtain ⟨hrun0, hrun1⟩ := disableTo_zero_run { s with env := .answeringParents r0 r1 }
    rw [answeringParents_parentsNow] at hrun0 hrun1
    exact ⟨.answeringParents r0 r1, _, exec_host_done (i := .clkDisable .rgmiiTxEn) ha nofun
      (disableChain_last hc), hrun0, hrun1⟩
  · exact (exec_host_advances (i := .clkDisable .rgmiiTxEn) ha nofun nofun
      (disableChain_earlier hc)).1
  · exact exec_wrongNode ha nofun rfl
  · exact exec_noChain ha nofun rfl
  · refine exec_chain_refused (i := .clkDisable .rgmiiTxEn) (takes := .rgmiiTxEn) ha nofun rfl
      (by simp [hc]) (fun n hn => ?_)
    obtain rfl : n = 0 := by simpa [hc] using hn.symm
    rfl

end Sys2Proof.Machine

/-! # The bus access family (40_bus_access.md): RD.ETH1 and WR.ETH1 -/

namespace Sys2Proof.Machine

/-! ## RD.ETH1 (R83) -/

/-- RD.ETH1 of HOST, as a whole: the coming draw goes to `t` and to the log, and is used up. -/
theorem exec_rdEth1_host {s : State} (ha : s.agent = .host) :
    exec .rdEth1 s = .next { s with
      t := s.env.wordNow
      txns := s.txns ++ [⟨.host, .read, 4, s.env.wordNow⟩]
      env := { s.env with nWord := s.env.nWord + 1 }
      pos := s.pos + 1 } := by
  rw [(exec_host_advances (i := .rdEth1) ha nofun nofun rfl).1]
  simp [State.advance, State.readEth1, State.setT, State.logTxn, State.popWord, ha]

/-- An environment that answers the two coming reads of PRG_ETH1. -/
def Env.answeringWords (v w : Word) : Env := { Env.free with words := [v, w] }

theorem answeringWords_wordNow (v w : Word) : (Env.answeringWords v w).wordNow = v := rfl

/-- Once the first answer is used up, the second is the coming one. -/
theorem answeringWords_wordNow_next (v w : Word) :
    ({ Env.answeringWords v w with nWord := (Env.answeringWords v w).nWord + 1 } : Env).wordNow = w :=
  rfl

/-- Settles O13: what a read gives is the coming draw, and nothing ties one draw to the next. -/
theorem readEth1DrawsAnyValue : Obligations.ReadEth1DrawsAnyValue := by
  refine ⟨fun s ha => ⟨_, _, exec_rdEth1_host ha, rfl, ?_⟩, fun s v w ha => ?_⟩
  · have hsame : SameDrive s _ := ⟨rfl, rfl, rfl, rfl, rfl, rfl, rfl⟩
    exact ⟨hsame.outputs, hsame.nodeFreq⟩
  · exact ⟨Env.answeringWords v w, _, _, exec_rdEth1_host ha, answeringWords_wordNow v w,
      exec_rdEth1_host ha, answeringWords_wordNow_next v w⟩

/-! ## WR.ETH1 (R84) -/

/-- Settles O15: the refusal comes before the agent, the value or the state is looked at. -/
theorem writeEth1IsRefused : Obligations.WriteEth1IsRefused :=
  fun _ _ => rfl

end Sys2Proof.Machine

/-! # The clock chain family (41_clock_chain.md): the construction and the release of the chain, the
divider and the frequencies, rate queries and rate requests, and what DATAPATH reaches -/

namespace Sys2Proof.Machine

/-! ## CHAIN.BUILD (R87) -/

/-- Registrations one after the other (R87). -/
def registerStages : List Node → State → Res
  | [], s => .done s
  | n :: l, s => (registerStage n s).andThen (registerStages l)

theorem andThen_assoc (r : Res) (f g : State → Res) :
    (r.andThen f).andThen g = r.andThen (fun s => (f s).andThen g) := by
  cases r <;> rfl

/-- CHAIN.BUILD is two lookups, then the four registrations in dependency order (R87). -/
theorem buildChain_eq (s : State) :
    buildChain s = (lookupParent0 s).andThen (fun u => (lookupParent1 u).andThen (fun v =>
      (registerStages allStages v).andThen (fun w => .done { w with chain := .built 0 }))) := by
  simp only [buildChain, registerStages, allStages, andThen_assoc, done_andThen]

/-- The state with the stages `l` registered too, after `k` answers to "does it fail?" (R87). -/
def State.registered (s : State) (l : List Node) (k : Nat) : State :=
  { s with
    stages := l.foldl withStage s.stages
    env := { s.env with nFail := s.env.nFail + k } }

/-- The answers left after `m` of them. -/
theorem failAt_registered (s : State) (l : List Node) (m k : Nat) :
    (s.registered l m).env.failAt k = s.env.failAt (m + k) := by
  simp [State.registered, Env.failAt, Nat.add_assoc]

theorem registerStage_registered {n : Node} {s : State} (h : s.env.failAt 0 = false) :
    registerStage n s = .done (s.registered [n] 1) :=
  registerStage_ok h

theorem registered_registered (s : State) (n : Node) (l : List Node) (k : Nat) :
    (s.registered [n] 1).registered l k = s.registered (n :: l) (k + 1) := by
  simp [State.registered, Nat.add_assoc, Nat.add_comm 1 k]

/-- Where no registration fails, all stages are registered. -/
theorem registerStages_ok {l : List Node} {s : State} (h : NoFailure s l.length) :
    registerStages l s = .done (s.registered l l.length) := by
  induction l generalizing s with
  | nil => rfl
  | cons n l ih =>
    have hrest : NoFailure (s.registered [n] 1) l.length := by
      intro j hj
      rw [failAt_registered]
      exact h (1 + j) (by simp; omega)
    rw [registerStages, registerStage_registered (h 0 (by simp)), done_andThen, ih hrest,
      registered_registered]
    rfl

/-- The first registration that fails ends them: the stages before it are registered. -/
theorem registerStages_fail {l : List Node} {s : State} {k : Nat} {n : Node} (hn : l[k]? = some n)
    (hok : NoFailure s k) (hf : s.env.failAt k = true) :
    registerStages l s =
      .raised (.clockRegistrationFailed n) .chainBuild (s.registered (l.take k) (k + 1)) := by
  induction l generalizing s k with
  | nil => simp at hn
  | cons m l ih =>
    cases k with
    | zero =>
      obtain rfl : m = n := by simpa using hn
      rw [registerStages, registerStage_fail hf]
      rfl
    | succ k =>
      have hrest : NoFailure (s.registered [m] 1) k := by
        intro j hj
        rw [failAt_registered]
        exact hok (1 + j) (by omega)
      have hfail : (s.registered [m] 1).env.failAt k = true := by
        rw [failAt_registered, Nat.add_comm]
        exact hf
      rw [registerStages, registerStage_registered (hok 0 (by omega)), done_andThen,
        ih (by simpa using hn) hrest hfail, registered_registered]
      rfl

theorem mem_foldl_withStage {l b : List Node} {m : Node} :
    m ∈ l.foldl withStage b ↔ m ∈ b ∨ m ∈ l := by
  induction l generalizing b with
  | nil => simp
  | cons n l ih => rw [List.foldl_cons, ih, mem_withStage, List.mem_cons, or_assoc]

/-- Stages none of which was registered come after the others, in their order. -/
theorem foldl_withStage_of_nodup {l b : List Node} (h : (b ++ l).Nodup) :
    l.foldl withStage b = b ++ l := by
  induction l generalizing b with
  | nil => simp
  | cons n l ih =>
    have hnew : n ∉ b := fun hb => (List.disjoint_of_nodup_append h) hb (by simp)
    rw [List.foldl_cons, withStage, if_neg hnew, ih (by simpa using h)]
    simp

theorem allStages_nodup : allStages.Nodup := by decide

/-- The first `k` stages registered, where none was before. -/
theorem foldl_withStage_take (k : Nat) : (allStages.take k).foldl withStage [] = allStages.take k :=
  foldl_withStage_of_nodup (allStages_nodup.sublist (List.take_sublist k _))

/-- The answer to a lookup that fails in the variant `v` (R87, R127). -/
def Acquisition.answer : Acquisition → Lookup
  | .transient => .transient
  | .permanent => .permanent

theorem Acquisition.answer_ne_ok (v : Acquisition) : v.answer ≠ .ok := by
  cases v <;> simp [Acquisition.answer]

theorem Acquisition.answer_inj : ∀ v w : Acquisition, v.answer = w.answer → v = w
  | .transient, .transient, _ => rfl
  | .permanent, .permanent, _ => rfl

theorem lookup_cases (a : Lookup) : a = .ok ∨ ∃ v : Acquisition, a = v.answer := by
  cases a
  case ok => exact .inl rfl
  case transient => exact .inr ⟨.transient, rfl⟩
  case permanent => exact .inr ⟨.permanent, rfl⟩

/-- The state with both parents' handles held (R87). -/
def State.parentsHeld (s : State) : State :=
  { s with
    par0Held := true
    par1Held := true
    env := { s.env with nLookup := s.env.nLookup + 2 } }

theorem buildChain_lookup0_fails {s : State} {v : Acquisition} (h : s.env.lookupAt 0 = v.answer) :
    buildChain s = .raised (.clockAcquisitionFailed v .parent0) .chainBuild s.popLookup := by
  cases v
  case transient => rw [buildChain_eq, lookupParent0_transient h, raised_andThen]
  case permanent => rw [buildChain_eq, lookupParent0_permanent h, raised_andThen]

theorem buildChain_lookup1_fails {s : State} {v : Acquisition} (h0 : s.env.lookupAt 0 = .ok)
    (h1 : s.env.lookupAt 1 = v.answer) :
    buildChain s = .raised (.clockAcquisitionFailed v .parent1) .chainBuild
      { s.popLookup with par0Held := true }.popLookup := by
  have h1' : ({ s.popLookup with par0Held := true } : State).env.lookupAt 0 = v.answer :=
    (popLookup_lookupAt s 0).trans h1
  rw [buildChain_eq, lookupParent0_ok h0, done_andThen]
  cases v
  case transient => rw [lookupParent1_transient h1', raised_andThen]
  case permanent => rw [lookupParent1_permanent h1', raised_andThen]

/-- Where both lookups succeed, the registrations decide. -/
theorem buildChain_lookups_ok {s : State} (h0 : s.env.lookupAt 0 = .ok) (h1 : s.env.lookupAt 1 = .ok) :
    buildChain s = (registerStages allStages s.parentsHeld).andThen
      (fun w => .done { w with chain := .built 0 }) := by
  have h1' : ({ s.popLookup with par0Held := true } : State).env.lookupAt 0 = .ok :=
    (popLookup_lookupAt s 0).trans h1
  rw [buildChain_eq, lookupParent0_ok h0, done_andThen, lookupParent1_ok h1', done_andThen]
  rfl

theorem buildChain_registration_fails {s : State} {k : Nat} {n : Node} (h0 : s.env.lookupAt 0 = .ok)
    (h1 : s.env.lookupAt 1 = .ok) (hn : allStages[k]? = some n) (hok : NoFailure s k)
    (hf : s.env.failAt k = true) :
    buildChain s = .raised (.clockRegistrationFailed n) .chainBuild
      (s.parentsHeld.registered (allStages.take k) (k + 1)) := by
  rw [buildChain_lookups_ok h0 h1, registerStages_fail (s := s.parentsHeld) hn hok hf, raised_andThen]

theorem buildChain_succeeds {s : State} (h0 : s.env.lookupAt 0 = .ok) (h1 : s.env.lookupAt 1 = .ok)
    (hok : NoFailure s 4) :
    buildChain s = .done { s.parentsHeld.registered allStages 4 with chain := .built 0 } := by
  rw [buildChain_lookups_ok h0 h1, registerStages_ok (l := allStages) (s := s.parentsHeld) hok]
  rfl

/-- Of some answers, none fails or there is a first that does. -/
theorem noFailure_or_first (s : State) (k : Nat) :
    NoFailure s k ∨ ∃ j, j < k ∧ NoFailure s j ∧ s.env.failAt j = true := by
  induction k with
  | zero => exact .inl (fun j hj => absurd hj (Nat.not_lt_zero j))
  | succ k ih =>
    rcases ih with hok | ⟨j, hj, hfirst⟩
    · cases hk : s.env.failAt k with
      | true => exact .inr ⟨k, Nat.lt_succ_self k, hok, hk⟩
      | false =>
        refine .inl (fun j hj => ?_)
        rcases Nat.lt_succ_iff_lt_or_eq.1 hj with hlt | rfl
        · exact hok j hlt
        · exact hk
    · exact .inr ⟨j, Nat.lt_succ_of_lt hj, hfirst⟩

/-- There is one first failure only. -/
theorem firstFailure_unique {s : State} {j k : Nat} (hj : NoFailure s j) (hk : NoFailure s k)
    (hfj : s.env.failAt j = true) (hfk : s.env.failAt k = true) : j = k := by
  rcases Nat.lt_trichotomy j k with h | h | h
  · exact absurd hfj (by simp [hk j h])
  · exact h
  · exact absurd hfk (by simp [hj k h])

/-- Every way CHAIN.BUILD of HOST can go, with what it leaves (R87, R127). -/
theorem exec_chainBuild_cases {s : State} (ha : s.agent = .host) :
    (∃ v : Acquisition, s.env.lookupAt 0 = v.answer ∧
      exec .chainBuild s =
        .next (s.popLookup.failedWith (.clockAcquisitionFailed v .parent0) .chainBuild)) ∨
    (∃ v : Acquisition, s.env.lookupAt 0 = .ok ∧ s.env.lookupAt 1 = v.answer ∧
      exec .chainBuild s = .next (({ s.popLookup with par0Held := true }.popLookup).failedWith
        (.clockAcquisitionFailed v .parent1) .chainBuild)) ∨
    (s.env.lookupAt 0 = .ok ∧ s.env.lookupAt 1 = .ok ∧ ∃ k n, allStages[k]? = some n ∧
      NoFailure s k ∧ s.env.failAt k = true ∧
      exec .chainBuild s = .next ((s.parentsHeld.registered (allStages.take k) (k + 1)).failedWith
        (.clockRegistrationFailed n) .chainBuild)) ∨
    (s.env.lookupAt 0 = .ok ∧ s.env.lookupAt 1 = .ok ∧ NoFailure s 4 ∧
      exec .chainBuild s =
        .next { s.parentsHeld.registered allStages 4 with chain := .built 0 }.advance) := by
  rcases lookup_cases (s.env.lookupAt 0) with h0 | ⟨v, h0⟩
  · rcases lookup_cases (s.env.lookupAt 1) with h1 | ⟨v, h1⟩
    · rcases noFailure_or_first s 4 with hok | ⟨k, hk, hok, hf⟩
      · exact .inr (.inr (.inr ⟨h0, h1, hok, (exec_host_advances (i := .chainBuild) ha nofun nofun
          (buildChain_succeeds h0 h1 hok)).1⟩))
      · have hn : allStages[k]? = some allStages[k] := List.getElem?_eq_getElem hk
        exact .inr (.inr (.inl ⟨h0, h1, k, _, hn, hok, hf, exec_host_raised (i := .chainBuild) ha nofun
          (buildChain_registration_fails h0 h1 hn hok hf) rfl⟩))
    · exact .inr (.inl ⟨v, h0, h1, exec_host_raised (i := .chainBuild) ha nofun
        (buildChain_lookup1_fails h0 h1) rfl⟩)
  · exact .inl ⟨v, h0, exec_host_raised (i := .chainBuild) ha nofun (buildChain_lookup0_fails h0) rfl⟩

theorem mem_allStages (n : Node) : n ∈ allStages := by
  cases n <;> decide

/-- Settles O22. -/
theorem chainBuildCompletes : Obligations.ChainBuildCompletes := by
  intro s ha h0 h1 hok
  have hexec := (exec_host_advances (i := .chainBuild) ha nofun nofun
    (buildChain_succeeds h0 h1 hok)).1
  refine ⟨_, hexec, rfl, fun n => mem_foldl_withStage.2 (.inr (mem_allStages n)), fun hs => ?_⟩
  show allStages.foldl withStage s.stages = allStages
  rw [hs]
  exact foldl_withStage_take 4

/-- Settles O23: each clause by the one way of `exec_chainBuild_cases` that its premises leave. -/
theorem chainBuildReportsFirstFailure : Obligations.ChainBuildReportsFirstFailure := by
  intro s ha
  rcases exec_chainBuild_cases ha with ⟨v, h0, he⟩ | ⟨v, h0, h1, he⟩ |
    ⟨h0, h1, k, n, hn, hok, hf, he⟩ | ⟨h0, h1, hok, he⟩
  · have hno : s.env.lookupAt 0 ≠ .ok := h0 ▸ v.answer_ne_ok
    refine ⟨_, he, rfl, fun h => ?_, fun h => ?_, fun h => absurd h hno, fun h => absurd h hno,
      fun _ => ⟨rfl, rfl, rfl⟩, fun h => absurd h hno, fun h => absurd h hno,
      fun _ => ⟨rfl, rfl, rfl⟩⟩
    · obtain rfl := v.answer_inj .transient (h0.symm.trans h)
      rfl
    · obtain rfl := v.answer_inj .permanent (h0.symm.trans h)
      rfl
  · have hno : s.env.lookupAt 1 ≠ .ok := h1 ▸ v.answer_ne_ok
    refine ⟨_, he, rfl, by simp [h0], by simp [h0], fun _ h => ?_, fun _ h => ?_,
      fun h => absurd h0 h, fun _ _ => ⟨rfl, rfl, rfl⟩, fun _ h => absurd h hno,
      fun _ => ⟨rfl, rfl, rfl⟩⟩
    · obtain rfl := v.answer_inj .transient (h1.symm.trans h)
      rfl
    · obtain rfl := v.answer_inj .permanent (h1.symm.trans h)
      rfl
  · refine ⟨_, he, rfl, by simp [h0], by simp [h0], by simp [h1], by simp [h1],
      fun h => absurd h0 h, fun _ h => absurd h1 h, fun _ _ k' n' hn' hok' hf' => ?_,
      fun _ => ⟨rfl, rfl, rfl⟩⟩
    obtain rfl := firstFailure_unique hok hok' hf hf'
    obtain rfl : n = n' := Option.some.inj (hn.symm.trans hn')
    refine ⟨rfl, rfl, rfl, fun m => mem_foldl_withStage, fun hs => ?_⟩
    show (allStages.take k).foldl withStage s.stages = allStages.take k
    rw [hs, foldl_withStage_take]
  · refine ⟨_, he, rfl, by simp [h0], by simp [h0], by simp [h1], by simp [h1],
      fun h => absurd h0 h, fun _ h => absurd h1 h, fun _ _ k n hn hok' hf => ?_, ?_⟩
    · have hk : k < 4 := (List.getElem?_eq_some_iff.1 hn).1
      exact absurd hf (by simp [hok k hk])
    · rintro (h | h | ⟨k, hk, hf⟩)
      · exact absurd h0 h
      · exact absurd h1 h
      · exact absurd hf (by simp [hok k hk])

/-! ## RoundClosest (R94) -/

theorem rateGap_eq_abs (a b : Rat) : rateGap a b = |a - b| := by
  unfold rateGap
  split
  · rename_i h
    rw [abs_of_nonpos (sub_nonpos.2 h), neg_sub]
  · rename_i h
    rw [abs_of_nonneg (sub_nonneg.2 (le_of_not_ge h))]

/-- The divisor `d` wins over `e`: its rate is at least as close to the target, and on a tie it is not the
smaller (R94). -/
def Wins (P T : Rat) (d e : Nat) : Prop :=
  rateGap (P / (d : Rat)) T ≤ rateGap (P / (e : Rat)) T ∧
    (rateGap (P / (e : Rat)) T = rateGap (P / (d : Rat)) T → e ≤ d)

theorem Wins.refl (P T : Rat) (d : Nat) : Wins P T d d := ⟨le_rfl, fun _ => le_rfl⟩

theorem Wins.trans {P T : Rat} {c d e : Nat} (h : Wins P T c d) (k : Wins P T d e) : Wins P T c e := by
  refine ⟨h.1.trans k.1, fun htie => ?_⟩
  have hde : rateGap (P / (e : Rat)) T = rateGap (P / (d : Rat)) T :=
    le_antisymm (htie ▸ h.1) k.1
  exact (k.2 hde).trans (h.2 (hde.symm.trans htie))

/-- One comparison with a larger divisor: one of the two is kept, and it wins over both. -/
theorem closer_wins (P T : Rat) {b d : Nat} (h : b < d) :
    (closer P T b d = b ∨ closer P T b d = d) ∧
      Wins P T (closer P T b d) b ∧ Wins P T (closer P T b d) d := by
  unfold closer
  split
  · rename_i hle
    exact ⟨.inr rfl, ⟨hle, fun _ => h.le⟩, .refl P T d⟩
  · rename_i hlt
    have hlt := lt_of_not_ge hlt
    exact ⟨.inl rfl, .refl P T b, hlt.le, fun htie => absurd htie hlt.ne'⟩

/-- The search through a list in ascending order ends with the divisor that wins over all. -/
theorem foldl_closer_wins (P T : Rat) {l : List Nat} {b : Nat} (h : (b :: l).Pairwise (· < ·)) :
    ∀ d ∈ b :: l, Wins P T (l.foldl (closer P T) b) d := by
  induction l generalizing b with
  | nil => simp [Wins.refl]
  | cons a l ih =>
    rw [List.pairwise_cons, List.pairwise_cons] at h
    obtain ⟨hb, ha, hl⟩ := h
    obtain ⟨hkept, hwinsb, hwinsa⟩ := closer_wins P T (hb a (by simp))
    have hasc : (closer P T b a :: l).Pairwise (· < ·) := by
      refine List.pairwise_cons.2 ⟨fun d hd => ?_, hl⟩
      rcases hkept with hk | hk <;> rw [hk]
      · exact hb d (by simp [hd])
      · exact ha d hd
    have hfold := ih hasc
    have hend := hfold (closer P T b a) (by simp)
    intro d hd
    rcases List.mem_cons.1 hd with rfl | hd
    · exact hend.trans hwinsb
    · rcases List.mem_cons.1 hd with rfl | hd
      · exact hend.trans hwinsa
      · exact hfold d (by simp [hd])

/-- Settles O37. -/
theorem roundClosestIsClosest : Obligations.RoundClosestIsClosest := by
  intro P T _ _
  obtain ⟨h2, h7⟩ := roundClosest_mem P T
  refine ⟨h2, h7, fun d hd2 hd7 => ?_⟩
  have hasc : ([2, 3, 4, 5, 6, 7] : List Nat).Pairwise (· < ·) := by decide
  have hwins : Wins P T (roundClosest P T) d :=
    foldl_closer_wins P T hasc d (mem_divisors.2 ⟨hd2, hd7⟩)
  simpa [Wins, rateGap_eq_abs] using hwins

/-! ## The frequencies of the nodes (R35, R88 to R92) -/

/-- With the selected parent running, the three inner nodes (R88, R90, R91). -/
theorem freq_running {s : State} (h : s.parentRuns (selBit s.reg0) = true) :
    s.freqSel = .hz (s.parentRate (selBit s.reg0)) ∧
      s.freqDiv = .hz (s.parentRate (selBit s.reg0) / (hwDiv (divRaw s.reg0) : Rat)) ∧
      s.freqFixed = .hz (s.parentRate (selBit s.reg0) / (2 * (hwDiv (divRaw s.reg0) : Rat))) := by
  have hsel : s.freqSel = .hz (s.parentRate (selBit s.reg0)) := if_pos h
  have hdiv : s.freqDiv = .hz (s.parentRate (selBit s.reg0) / (hwDiv (divRaw s.reg0) : Rat)) := by
    rw [State.freqDiv, hsel, Freq.map]
  refine ⟨hsel, hdiv, ?_⟩
  rw [State.freqFixed, hdiv, Freq.map, div_div, mul_comm]

/-- With the selected parent stopped, every node is stopped (R88). -/
theorem freq_stopped {s : State} (h : s.parentRuns (selBit s.reg0) = false) :
    s.freqSel = .stopped ∧ s.freqDiv = .stopped ∧ s.freqFixed = .stopped ∧ s.freqOut = .stopped := by
  have hsel : s.freqSel = .stopped := if_neg (by simp [h])
  have hdiv : s.freqDiv = .stopped := by rw [State.freqDiv, hsel, Freq.map]
  have hfixed : s.freqFixed = .stopped := by rw [State.freqFixed, hdiv, Freq.map]
  exact ⟨hsel, hdiv, hfixed, by rw [State.freqOut, hfixed, ite_self]⟩

/-- The divisor the silicon applies, from the bits of PRG_ETH0 (R89). -/
theorem hwDiv_divRaw (w : Word) :
    hwDiv (divRaw w) =
      if ((w >>> 7) &&& 7).toNat < 2 then Config.divLowHw else ((w >>> 7) &&& 7).toNat := by
  rw [hwDiv_eq (divRaw_lt w), divRaw_eq]

/-- Settles O38. -/
theorem outputClockFrequency : Obligations.OutputClockFrequency := by
  intro s sel parent raw hw
  have hhw : hwDiv (divRaw s.reg0) = hw := hwDiv_divRaw s.reg0
  have hrun : s.parentRuns sel = true → s.freqSel = .hz parent ∧
      s.freqDiv = .hz (parent / (hw : Rat)) ∧ s.freqFixed = .hz (parent / (2 * (hw : Rat))) :=
    fun h => hhw ▸ freq_running h
  refine ⟨hrun, fun h hgate => ?_, freq_stopped, rgmiiTxClk_stopped, fun h => ?_⟩
  · obtain ⟨_, _, hfixed⟩ := hrun h
    exact (if_pos hgate).trans hfixed
  · rw [State.parentRuns, h, Bool.true_or]

/-! ## Rate queries (R93, R95) -/

/-- The configured rate of a node, from the select and the divider's raw value (R93). -/
theorem reportedRate_eq (s : State) (w : Word) (node : Node) :
    reportedRate s w node =
      nodeRate (if w.getLsbD 4 then s.p1 else s.p0)
        (if ((w >>> 7) &&& 7).toNat < 2 then 1 else ((w >>> 7) &&& 7).toNat) node := by
  rw [reportedRate, swDiv_eq (divRaw_lt w), divRaw_eq]
  rfl

/-- Settles O24. -/
theorem getRateReportsConfiguredRate : Obligations.GetRateReportsConfiguredRate := by
  refine ⟨fun s n node ha hc => ?_, fun s node ha hc => ?_⟩
  · rw [(exec_host_advances (i := .clkGetRate node) ha nofun nofun (getRate_ok hc node)).1,
      reportedRate_eq]
    cases node <;> simp [State.advance, State.setRate, State.readEth0, State.setT, State.logTxn,
      nodeRate, ha]
  · exact exec_host_refused (i := .clkGetRate node) ha nofun (withChain_none hc _)

/-- CLK.ROUND_RATE of HOST reports the rate of the node under the outcome drawn, and draws one choice
(R95). -/
theorem exec_clkRoundRate_host {s : State} {n hz : Nat} (ha : s.agent = .host) (hc : s.chain = .built n)
    (h0 : 0 < hz) (node : Node) :
    let o := rateOutcome s (dividerTarget hz node) s.env.rateNow
    exec (.clkRoundRate node hz) s = .next { s with
      rate := nodeRate o.parent o.div node
      env := { s.env with nRate := s.env.nRate + 1 }
      pos := s.pos + 1 } := by
  intro o
  have hop : opOf (.clkRoundRate node hz) s = .done (s.popRate.setRate (nodeRate o.parent o.div node)) :=
    (withChain_built hc _).trans (if_neg (by omega))
  rw [(exec_host_advances (i := .clkRoundRate node hz) ha nofun nofun hop).1]
  simp [State.advance, State.setRate, State.popRate, ha]

/-- Settles O25: the outcome is the one the choice drawn names. -/
theorem roundRateReportsAnOutcome : Obligations.RoundRateReportsAnOutcome := by
  refine ⟨fun s n node hz ha hc h0 => ?_, fun s n hz ha hc h0 href => ?_, fun s node hz ha h => ?_⟩
  · have htarget : dividerTarget hz node = if node = .m250Div then (hz : Rat) else 2 * (hz : Rat) := by
      cases node <;> rfl
    refine ⟨_, rateOutcome_mem s _ s.env.rateNow, ?_⟩
    rw [exec_clkRoundRate_host ha hc h0, htarget]
    cases node <;> rfl
  · rw [exec_clkRoundRate_host ha hc h0, href, rateOutcome_reference]
    rfl
  · refine exec_host_refused (i := .clkRoundRate node hz) ha nofun ?_
    cases hc : s.chain with
    | none => exact (withChain_none hc _).trans (by simp)
    | built n =>
      obtain rfl : hz = 0 := h.resolve_left (by simp [hc])
      exact (withChain_built hc _).trans (by simp)

/-! ## Rate requests (R98, R99, R100) -/

/-- What a rate request that does not fail leaves: the choice drawn, then its two writes (R98). -/
def State.rateSet (s : State) (hz : Nat) : State :=
  (s.chooseRate hz).rateWrites (rateOutcome s (2 * (hz : Rat)) s.env.rateNow) s.env.rateNow

/-- Alone on the bus, it leaves the select and the divisor of the outcome, and touches nothing else of
PRG_ETH0. -/
theorem rateSet_alone {s : State} (h : ExclusiveInit s) (hz : Nat) :
    let o := rateOutcome s (2 * (hz : Rat)) s.env.rateNow
    RatePart (s.chooseRate hz) (s.rateSet hz) 2 ∧ selBit (s.rateSet hz).reg0 = o.sel ∧
      divRaw (s.rateSet hz).reg0 = o.div :=
  rateWrites_alone (s := s.chooseRate hz) (h.mono rfl le_rfl rfl) _ (rateOutcome_mem s _ _).div_lt _

section
variable {s : State} {n hz : Nat} (hc : s.chain = .built n) (h0 : 0 < hz) (hf : s.env.failAt 0 = false)
include hc h0 hf

theorem exec_clkSetRate_host (ha : s.agent = .host) :
    exec (.clkSetRate .rgmiiTxEn hz) s = .next (s.rateSet hz).advance :=
  (exec_host_advances (i := .clkSetRate .rgmiiTxEn hz) ha nofun nofun (setRate_chooseRate hc h0 hf)).1

/-- A rate request of HOST alone on the bus: the parents' rates of the outcome, what its two writes leave
of PRG_ETH0, and nothing else but its temporary, the log and the draws (R98). -/
theorem exec_clkSetRate_alone (h : HostAlone s) :
    exec (.clkSetRate .rgmiiTxEn hz) s = .next { s with
      reg0 := (s.rateSet hz).reg0
      p0 := (rateOutcome s (2 * (hz : Rat)) s.env.rateNow).p0
      p1 := (rateOutcome s (2 * (hz : Rat)) s.env.rateNow).p1
      t := (s.rateSet hz).t
      txns := (s.rateSet hz).txns
      env := { s.env with
        nFail := s.env.nFail + 1
        nRate := s.env.nRate + 1
        nGap := (s.rateSet hz).env.nGap }
      pos := s.pos + 1 } := by
  obtain ⟨hpart, _⟩ := rateSet_alone h.2 hz
  rw [exec_clkSetRate_host hc h0 hf h.1, State.advance, hpart.frame, hpart.host h.1]
  rfl

end

/-- The choice that names a given outcome (R98). -/
def RateOutcome.choice (o : RateOutcome) : RateChoice where
  sel := o.sel
  newP0 := some o.p0
  newP1 := some o.p1
  divLess2 := Fin.ofNat 6 (o.div - 2)
  divFirst := false
  skipSel := false
  skipDiv := false

theorem newRate_some {old new : Rat} (h : new = old ∨ 0 < new) : newRate old (some new) = new := by
  rcases h with rfl | h
  · simp [newRate]
  · simp [newRate, h]

/-- Every member of `Outcomes` is the outcome of a choice (R98). -/
theorem rateOutcome_choice {s : State} {T : Rat} {o : RateOutcome} (h : Outcomes s T o) :
    rateOutcome s T o.choice = o := by
  obtain ⟨hdiv, hp0, hp1, hclosest⟩ := h
  have hfin : (Fin.ofNat 6 (o.div - 2)).val + 2 = o.div := by
    have hd := mem_divisors.1 hdiv
    simp only [Fin.val_ofNat]
    omega
  have hd : (if o.sel = selBit s.reg0 ∧ o.parent = s.parentRate o.sel then roundClosest o.parent T
      else o.div) = o.div := by
    split
    · rename_i hkept
      rw [hkept.2, ← hclosest hkept.1 hkept.2]
    · rfl
  simp only [rateOutcome, RateOutcome.choice, newRate_some hp0, newRate_some hp1, hfin]
  exact congrArg (RateOutcome.mk o.sel o.p0 o.p1) hd

/-- An environment in which the coming rate request does not fail and has the choice `c`, and in whose gaps
nobody acts. -/
def Env.choosingRate (c : RateChoice) : Env := { Env.free with fails := [false], rates := [c] }

/-- Settles O28: the outcome is that of the choice drawn, and each outcome is that of a choice. -/
theorem setRateEndsInAnOutcome : Obligations.SetRateEndsInAnOutcome := by
  refine ⟨fun s n hz h hc h0 hf => ?_, fun s n hz o ha hj hc h0 ho => ?_⟩
  · obtain ⟨hpart, hsel, hdiv⟩ := rateSet_alone h.2 hz
    obtain ⟨j, hj, htxns⟩ := hpart.txns
    refine ⟨_, _, exec_clkSetRate_alone hc h0 hf h, rateOutcome_mem s _ _, hsel, hdiv,
      hpart.keep, ?_, rfl⟩
    obtain rfl | rfl | rfl : j = 0 ∨ j = 1 ∨ j = 2 := by omega
    · exact .inl htxns
    · exact .inr (.inl htxns)
    · exact .inr (.inr htxns)
  · have h : HostAlone { s with env := .choosingRate o.choice } := ⟨ha, exclusive_of_nil rfl hj⟩
    obtain ⟨_, hsel, hdiv⟩ := rateSet_alone h.2 hz
    have hout : rateOutcome { s with env := .choosingRate o.choice } (2 * (hz : Rat))
        (Env.choosingRate o.choice).rateNow = o := rateOutcome_choice ho
    exact ⟨.choosingRate o.choice, _, exec_clkSetRate_alone hc h0 rfl h,
      hsel.trans (congrArg RateOutcome.sel hout), hdiv.trans (congrArg RateOutcome.div hout),
      congrArg RateOutcome.p0 hout, congrArg RateOutcome.p1 hout⟩

/-- With the reference resolver's choice the select is skipped, so the divisor's is the only masked
write (R100). -/
theorem rateWrites_reference {s : State} (h : ExclusiveInit s) {o : RateOutcome}
    (hs : o.sel = selBit s.reg0) :
    s.rateWrites o (referenceChoice s.reg0) = (s.gap 0).mwHeld divM divM (divField o.div) := by
  have hgap : (s.gap 0).reg0 = s.reg0 := by rw [gap_alone (h.1 0)]
  have hsel : s.rateSel o true = s.gap 0 := if_pos ⟨rfl, by rw [hgap, hs]⟩
  have hdiv : (s.gap 0).rateDiv o false = (s.gap 0).mwHeld divM divM (divField o.div) :=
    if_neg (by simp)
  show (s.rateSel o true).rateDiv o false = _
  rw [hsel, hdiv]

/-- Settles O29. -/
theorem referenceResolverSetsOneDivisor : Obligations.ReferenceResolverSetsOneDivisor := by
  intro s n hz h hc h0 hf href d
  obtain ⟨hd2, hd7⟩ : 2 ≤ d ∧ d ≤ 7 := roundClosest_mem _ _
  have hd : d < 8 := by omega
  have hout : rateOutcome s (2 * (hz : Rat)) s.env.rateNow = ⟨selBit s.reg0, s.p0, s.p1, d⟩ := by
    rw [href, rateOutcome_reference]
    rfl
  have hx : HostAlone (s.chooseRate hz) := ⟨h.1, h.2.mono rfl le_rfl rfl⟩
  have hset : s.rateSet hz = ((s.chooseRate hz).gap 0).afterMw 0x380 (BitVec.ofNat 32 (128 * d)) := by
    have hgap : HostAlone ((s.chooseRate hz).gap 0) :=
      ⟨(gap_agent 0 _).trans hx.1, exclusive_gap hx.2 0⟩
    rw [State.rateSet, hout, href, ← divField_eq hd]
    exact (rateWrites_reference hx.2 rfl).trans (mwHeld_alone hgap _ _ _)
  refine ⟨_, exec_clkSetRate_host hc h0 hf h.1, ?_, hd2, hd7, ?_⟩
  · rw [hset, gap_alone (hx.2.1 0), State.chooseRate, hout]
    rfl
  · rw [hset]
    exact divRaw_afterMw _ hd

/-! ## CHAIN.RELEASE (R104) -/

/-- CHAIN.RELEASE of HOST drops the chain, whatever its count (R104). -/
theorem exec_chainRelease_host {s : State} {n : Nat} (ha : s.agent = .host) (hc : s.chain = .built n) :
    exec .chainRelease s = .next (s.dropChain n).advance :=
  (exec_host_advances (i := .chainRelease) ha nofun nofun (withChain_built hc _)).1

/-- Settles O35. -/
theorem chainReleaseGatesOffOnce : Obligations.ChainReleaseGatesOffOnce := by
  refine ⟨fun s ha hc => exec_chainRelease_host ha hc, fun s n h hc => ?_,
    fun s n r0 r1 ha hc => ?_, fun s ha hc => ?_⟩
  · have hgap : (s.disableTo 0).env.gapAt 0 = [] := by
      rw [disableTo_zero_alone h]
      exact h.2.1 2
    refine ⟨s.env.parentsNow.1, s.env.parentsNow.2, ?_⟩
    rw [exec_chainRelease_host h.1 hc, dropChain_succ, gap_alone hgap, disableTo_zero_alone h]
    rfl
  · obtain ⟨hrun0, hrun1⟩ := disableTo_zero_run { s with env := .answeringParents r0 r1 }
    rw [answeringParents_parentsNow] at hrun0 hrun1
    refine ⟨.answeringParents r0 r1, _, exec_chainRelease_host ha hc, ?_, ?_⟩
    · rw [dropChain_succ]
      exact (gap_run0 0 _).trans hrun0
    · rw [dropChain_succ]
      exact (gap_run1 0 _).trans hrun1
  · exact exec_host_refused (i := .chainRelease) ha nofun (withChain_none hc _)

/-! ## DATAPATH's operations (R98, R134, R140) -/

/-- What an operation of DATAPATH may change at all: PRG_ETH0, the parents' rates, what DATAPATH itself is
told, the log and the draws. -/
def RateFrame (s t : State) : Prop :=
  t = { s with
    reg0 := t.reg0
    p0 := t.p0
    p1 := t.p1
    dpT := t.dpT
    dpRate := t.dpRate
    dpError := t.dpError
    txns := t.txns
    env := t.env }

theorem RateFrame.trans {s t u : State} (h : RateFrame s t) (k : RateFrame t u) : RateFrame s u := by
  unfold RateFrame at *
  rw [h] at k
  simpa using k

/-- What DATAPATH does alone on the bus keeps to the frame and, of PRG_ETH0, to bits [4] and [9:7]; and
nobody else comes onto the bus. -/
def ConfinedToRate (s t : State) : Prop :=
  s.agent = .datapath → ExclusiveInit s →
    ExclusiveInit t ∧ t.reg0 &&& ~~~rateBits = s.reg0 &&& ~~~rateBits ∧ RateFrame s t

theorem confinedToRate_steady : Steady ConfinedToRate where
  refl s _ hx := ⟨hx, rfl, rfl⟩
  trans s t u h k ha hx := by
    obtain ⟨ht, hreg, hframe⟩ := h ha hx
    have hta : t.agent = .datapath := by rw [hframe]; exact ha
    obtain ⟨hu, hreg', hframe'⟩ := k hta ht
    exact ⟨hu, hreg'.trans hreg, hframe.trans hframe'⟩

theorem confinedToRate_popRate (s : State) : ConfinedToRate s s.popRate :=
  fun _ hx => ⟨hx.mono rfl le_rfl rfl, rfl, rfl⟩

theorem confinedToRate_setRate (s : State) (f : Rat) : ConfinedToRate s (s.setRate f) :=
  fun ha hx => ⟨hx.mono rfl le_rfl rfl, rfl, by simp [RateFrame, State.setRate, ha]⟩

theorem confinedToRate_readEth0 (s : State) : ConfinedToRate s s.readEth0 :=
  fun ha hx => ⟨hx.mono rfl le_rfl rfl, rfl,
    by simp [RateFrame, State.readEth0, State.setT, State.logTxn, ha]⟩

theorem confinedToRate_gap (s : State) : ConfinedToRate s (s.gap 0) := by
  intro ha hx
  refine ⟨exclusive_gap hx 0, ?_⟩
  rw [gap_alone (hx.1 0)]
  exact ⟨rfl, rfl⟩

theorem confinedToRate_mwHeld {m : Word} (hm : m &&& ~~~rateBits = 0) (held v : Word) (s : State) :
    ConfinedToRate s (s.mwHeld held m v) := by
  intro ha hx
  refine ⟨exclusive_mwHeld hx held m v, ?_⟩
  rw [mwHeld_exclusive hx]
  exact ⟨merge_keeps hm, by simp [RateFrame, ha]⟩

/-- Each of the three rate operations is confined (R98, R134). -/
theorem rateOperation_confined {i : Instr} (s : State)
    (hi : i = .clkGetRate .rgmiiTxEn ∨ (∃ hz, i = .clkRoundRate .rgmiiTxEn hz) ∨
      ∃ hz, i = .clkSetRate .rgmiiTxEn hz) : (opOf i s).All (ConfinedToRate s) := by
  have hS := confinedToRate_steady
  rcases hi with rfl | ⟨hz, rfl⟩ | ⟨hz, rfl⟩
  · exact withChain_all (fun _ _ =>
      hS.trans _ _ _ (confinedToRate_readEth0 s) (confinedToRate_setRate _ _))
  · refine withChain_all (fun _ _ => ?_)
    dsimp only
    split
    · trivial
    · exact hS.trans _ _ _ (confinedToRate_popRate s) (confinedToRate_setRate _ _)
  · exact hS.setRate (fun _ _ hx => ⟨hx.mono rfl (le_refl _) rfl, rfl, rfl⟩) confinedToRate_gap
      confinedToRate_popRate (fun _ _ _ _ hx => ⟨hx.mono rfl le_rfl rfl, rfl, rfl⟩)
      (fun u v => confinedToRate_mwHeld rfl selM v u) (fun u v => confinedToRate_mwHeld rfl divM v u) _ _ s

/-- Settles O59: by R134 the operation is one of the three, and how it ends is told to DATAPATH only. -/
theorem datapathIsConfinedToTheRate : Obligations.DatapathIsConfinedToTheRate := by
  intro i s t ha hx hexec
  have hi : i ≠ .orchRelease := by
    rintro rfl
    obtain ⟨hhost, _⟩ := execOrchRelease_next hexec
    simp [ha] at hhost
  obtain ⟨hsettle, hrate⟩ := exec_next hexec hi
  obtain ⟨u, hu, hend⟩ := settle_all (rateOperation_confined s (hrate ha).2) hsettle
  obtain ⟨_, hreg, hframe⟩ := hu ha hx
  have hua : u.agent = .datapath := by rw [hframe]; exact ha
  rcases hend with rfl | ⟨k, g, rfl⟩
  · rw [complete_datapath hua]
    exact ⟨hreg, hframe.trans rfl⟩
  · rw [takeRaise_datapath hua]
    exact ⟨hreg, hframe.trans rfl⟩

end Sys2Proof.Machine

/-! # The mode encoder family (42_mode_encoder.md): PHYMODE.APPLY as a whole, and the interface select -/

namespace Sys2Proof.Machine

/-- With the configuration at hand, the operation is the encoder run on it (R105). -/
theorem opOf_phymodeApply {s : State} {c : Cfg} (hcfg : s.cfg = some c) :
    opOf .phymodeApply s = applyPhyMode c.mode c.family s := by
  simp [opOf, phyModeOp, hcfg]

/-- A mode that no family supports raises, and the error names it (R108). -/
theorem applyPhyMode_other (x : String) (f : Family) (s : State) :
    applyPhyMode (.other x) f s = .raised (.invalidPhyMode (.other x)) .phymodeApply s := by
  rw [applyPhyMode, modePair_eq_none.2 ⟨x, rfl⟩]

/-- Alone, PHYMODE.APPLY of a supported mode is the one masked write of its pair, under the mask of the
configured family's mode field (R105). -/
theorem exec_phymodeApply_alone {s : State} {c : Cfg} (h : HostAlone s) (hcfg : s.cfg = some c)
    (hmode : ∀ x, c.mode ≠ .other x) :
    ∃ v, modePair c.family c.mode = some (modeMask c.family, v) ∧
      exec .phymodeApply s = .next (s.afterMw (modeMask c.family) v).advance := by
  obtain ⟨v, hpair, hop⟩ := applyPhyMode_ok hmode c.family s
  exact ⟨v, hpair, exec_oneMw_alone h nofun ((opOf_phymodeApply hcfg).trans hop)⟩

/-- Advancing HOST's list reaches nothing that the outputs are functions of. -/
theorem outputs_advance (s : State) : s.advance.outputs = s.outputs := rfl

/-- On an instance of the family, the pair of a mode selects that mode's interface (R36, R66, R67). -/
theorem phyIf_afterMw_modePair {s : State} {f : Family} {mode : PhyMode} {m v : Word}
    (hf : s.params.family = f) (hp : modePair f mode = some (m, v)) :
    (s.afterMw m v).outputs.phyIf = if mode = .rmii then .rmii else .rgmii := by
  cases f with
  | legacy =>
    obtain ⟨rfl, rfl⟩ := modePair_legacy hp
    refine (phyIf_afterMw_legacy hf _).trans ?_
    split <;> rfl
  | extMode =>
    obtain ⟨rfl, rfl⟩ := modePair_ext hp
    split
    · exact phyIf_afterMw_rmii hf
    · exact phyIf_afterMw_rgmii hf

/-- Settles O39: the pair of a supported mode is written as a whole, and any other mode has no pair. -/
theorem phyModeApplyWritesModeField : Obligations.PhyModeApplyWritesModeField := by
  refine ⟨fun s c h hcfg hmode => ?_, fun s c x ha hcfg hx => ?_⟩
  · obtain ⟨v, hpair, hexec⟩ := exec_phymodeApply_alone h hcfg hmode
    refine ⟨_, hexec, fun hf => ?_, fun hf => ?_, fun hf => ?_⟩
    · rw [hf] at hpair ⊢
      obtain ⟨hm, rfl⟩ := modePair_legacy hpair
      rw [hm]
    · rw [hf] at hpair ⊢
      obtain ⟨hm, rfl⟩ := modePair_ext hpair
      rw [hm]
    · rw [outputs_advance]
      exact phyIf_afterMw_modePair hf hpair
  · have hop := opOf_phymodeApply hcfg
    rw [hx, applyPhyMode_other] at hop
    exact exec_host_raised ha nofun hop rfl

end Sys2Proof.Machine

/-! # The timing and delay encoder family (43_timing_encoder.md): ADJ.ENABLE by itself, and what TIMING.APPLY
leaves alone on the bus, completed, refused or failed -/

namespace Sys2Proof.Machine

/-! ## ADJ.ENABLE (R113) -/

theorem startAdj_absent {s : State} (h : s.adjClk = .absent) (left : Bool) :
    startAdj left s = .raised (.missingMandatoryClock .adjustment) .adjEnable s := by
  simp [startAdj, h]

theorem startAdj_fail {s : State} (h : s.adjClk = .present) (hf : s.env.failAt 0 = true) (left : Bool) :
    startAdj left s = .raised (.clockEnableFailed .adjustment) .adjEnable
      { s.popFail with adjEnabled := left } := by
  simp [startAdj, h, hf]

theorem startAdj_ok {s : State} (h : s.adjClk = .present) (hf : s.env.failAt 0 = false) (left : Bool) :
    startAdj left s = .done { s.popFail with adjEnabled := true } := by
  simp [startAdj, h, hf]

/-- Settles O40: each way the start can go, with the failing one leaving what it found. -/
theorem adjEnableStartsTheClock : Obligations.AdjEnableStartsTheClock := by
  refine fun s ha => ⟨fun h hf => ?_, fun h hf => ?_, fun h => ?_⟩
  · exact (exec_host_advances (i := .adjClkEnable) ha nofun nofun (startAdj_ok h hf _)).1
  · exact exec_host_raised (i := .adjClkEnable) ha nofun (startAdj_fail h hf _) rfl
  · exact exec_host_raised (i := .adjClkEnable) ha nofun (startAdj_absent h _) rfl

/-! ## TIMING.APPLY before its first write (R109, R111, R112; log 25) -/

/-- With the configuration at hand, the operation is the encoder run on it (R109). -/
theorem opOf_timingApply {s : State} {c : Cfg} (hcfg : s.cfg = some c) :
    opOf .timingApply s = applyTiming c.mode c.txDelay c.rxDelay s := by
  simp [opOf, timingOp, hcfg]

section
variable {s : State} {n : Nat} {rx : Word}

theorem applyTiming_badDelay (hc : s.chain = .built n) (h0 : rx ≠ 0) (h2 : rx ≠ 2) (mode : PhyMode)
    (tx : Word) : applyTiming mode tx rx s = .refused (.rxDelayOutside rx) := by
  rw [applyTiming, withChain_built hc, rxField_eq_none.2 ⟨h0, h2⟩]

/-- A defined rx delay has a field value (R111). -/
theorem exists_rxField (hrx : rx = 0 ∨ rx = 2) : ∃ rxf, rxField rx = some rxf := by
  refine Option.ne_none_iff_exists'.1 (fun h => ?_)
  obtain ⟨h0, h2⟩ := rxField_eq_none.1 h
  exact hrx.elim h0 h2

theorem applyTiming_other (hc : s.chain = .built n) (hrx : rx = 0 ∨ rx = 2) (x : String) (tx : Word) :
    applyTiming (.other x) tx rx s = .raised (.invalidPhyMode (.other x)) .timingApply s := by
  obtain ⟨rxf, hrxf⟩ := exists_rxField hrx
  rw [applyTiming, withChain_built hc, hrxf]
  rfl

end

theorem exists_built {c : Chain} (h : c ≠ .none) : ∃ n, c = .built n := by
  cases c with
  | none => exact absurd rfl h
  | built n => exact ⟨n, rfl⟩

/-- Settles O43: each refusal and the raise come before step 4. -/
theorem timingApplyRejectsBeforeWriting : Obligations.TimingApplyRejectsBeforeWriting := by
  refine fun s ha => ⟨fun hcfg => ⟨?_, ?_⟩, fun c hcfg => ?_⟩
  · exact exec_host_refused ha nofun (by simp [opOf, timingOp, hcfg])
  · exact exec_host_refused ha nofun (by simp [opOf, phyModeOp, hcfg])
  have hop := opOf_timingApply hcfg
  refine ⟨fun hc => ?_, fun hc h0 h2 => ?_, fun hc hrx x hx => ?_⟩
  · exact exec_host_refused ha nofun (hop.trans (withChain_none hc _))
  · obtain ⟨n, hn⟩ := exists_built hc
    exact exec_host_refused ha nofun (hop.trans (applyTiming_badDelay hn h0 h2 _ _))
  · obtain ⟨n, hn⟩ := exists_built hc
    rw [hx, applyTiming_other hn hrx] at hop
    exact exec_host_raised ha nofun hop rfl

/-! ## The words TIMING.APPLY writes (R110 to R117) -/

/-- Where the value is all ones under the mask, a merge sets the mask's bits. -/
theorem merge_ones (t m : Word) : merge t m m = t ||| m := by
  apply BitVec.eq_of_getElem_eq
  intro i hi
  cases hm : m[i] <;> simp [hm]

/-- The select is not touched by bits set elsewhere. -/
theorem selBit_or {x : Word} (h : selBit x = false) (w : Word) : selBit (w ||| x) = selBit w := by
  unfold selBit at *
  rw [BitVec.getLsbD_or, h, Bool.or_false]

/-- Nor is the divider. -/
theorem divRaw_or {x : Word} (h : x &&& divM = 0) (w : Word) : divRaw (w ||| x) = divRaw w := by
  have hw : (w ||| x) &&& divM = w &&& divM := by simp [BitVec.and_or_distrib_right, h]
  simp [divRaw, fieldGet, hw]

theorem delayMask_word (s : State) : s.params.delayMask.word = delayMaskWord s := by
  unfold delayMaskWord
  cases s.params.delayMask <;> rfl

/-- The delay value lies in the delay fields (R110 to R112). -/
theorem delayValue_under (mode : PhyMode) (tx rx : Word) :
    delayValue mode tx rx &&& 0x00006060 = delayValue mode tx rx := by
  unfold delayValue
  rw [BitVec.and_or_distrib_right]
  congr 1
  · split
    · exact BitVec.and_assoc ..
    · rfl
  · split <;> rfl

/-- `Combine` of the two fields is the delay value (R110, R111, R112). -/
theorem combine_eq_delayValue {mode : PhyMode} {tx rx rxf : Word} (hrx : rxField rx = some rxf)
    (hm : ∀ x, mode ≠ .other x) : combine (txField tx) rxf mode = some (delayValue mode tx rx) := by
  have hrxf : rxf = if rx = 2 then 0x6000 else 0 := by
    unfold rxField at hrx
    split at hrx
    · cases hrx
      exact (if_pos ‹_›).symm
    · split at hrx <;> cases hrx
      exact (if_neg ‹_›).symm
  have htx : txField tx = ((tx >>> 1) <<< 5) &&& 0x60 := rfl
  cases mode with
  | other x => exact absurd rfl (hm x)
  | rgmii | rgmiiRxid | rgmiiTxid | rgmiiId | rmii => simp [combine, delayValue, hrxf, htx]

/-- PRG_ETH0 with the delay value written and the inversion cleared (R114, R115). -/
def delayWritten (s : State) (dc : Word) : Word :=
  (s.reg0 &&& ~~~(delayMaskWord s) &&& 0xFFFFF7FF) ||| dc

/-- A value of the delay fields lies in any word that contains them. -/
theorem and_of_delayFields {dc m : Word} (hdc : dc &&& 0x00006060 = dc)
    (h : 0x00006060 &&& m = 0x00006060) : dc &&& m = dc := by
  rw [← hdc, BitVec.and_assoc, h]

/-- The delay fields are under the delay mask, under either reading of it (R114). -/
theorem delayFields_and_delayMask (s : State) : 0x00006060 &&& delayMaskWord s = 0x00006060 := by
  unfold delayMaskWord
  split <;> rfl

/-- The select, the gate and the reference enable are not (R114). -/
theorem delayMask_and_others (s : State) : delayMaskWord s &&& 0x00001410 = 0 := by
  unfold delayMaskWord
  split <;> rfl

theorem merge_delays {dc : Word} (hdc : dc &&& 0x00006060 = dc) (s : State) :
    merge (merge s.reg0 (delayMaskWord s) dc) invM 0 = delayWritten s dc := by
  rw [merge_of_under (and_of_delayFields hdc (delayFields_and_delayMask s)), merge_of_under (by rfl),
    BitVec.and_or_distrib_right, and_of_delayFields hdc rfl]
  exact BitVec.or_zero

/-- Bits that agree under a mask agree under a smaller one. -/
theorem and_eq_of_and_eq {a b m k : Word} (h : a &&& m = b &&& m) (hk : m &&& k = k) :
    a &&& k = b &&& k := by
  rw [← hk, ← BitVec.and_assoc, h, BitVec.and_assoc]

/-- Bits that a mask keeps can be set before it is applied or after. -/
theorem or_outside {x m : Word} (h : x &&& m = x) (a b : Word) :
    a &&& m ||| b ||| x = (a ||| x) &&& m ||| b := by
  rw [BitVec.and_or_distrib_right, h, BitVec.or_assoc, BitVec.or_assoc, BitVec.or_comm b x]

theorem selBit_congr {a b : Word} (h : a &&& selM = b &&& selM) : selBit a = selBit b := by
  have hand : ∀ w : Word, selBit w = selBit (w &&& selM) := fun w => by simp [selBit, selM]
  rw [hand a, h, ← hand b]

/-! ## The steps that need no chain: the adjustment clock and the delays (R113, R114) -/

/-- Step 4 done: the adjustment clock is started where it is needed, which draws one answer (R113). -/
def State.adjStarted (s : State) (need : Bool) : State :=
  { s with
    adjEnabled := s.adjEnabled || need
    env := { s.env with nFail := s.env.nFail + need.toNat } }

theorem adjCheck_ok {s : State} {dc rxf : Word} {need : Bool}
    (hneed : adjEnBit (s.params.adjCheckOn.probe dc rxf) = need)
    (h : need = true → s.adjClk = .present ∧ s.env.failAt 0 = false) :
    adjCheck dc rxf s = .done (s.adjStarted need) := by
  cases need with
  | false => simp [adjCheck, hneed, State.adjStarted]
  | true =>
    obtain ⟨hclk, hf⟩ := h rfl
    rw [adjCheck, if_pos hneed, startAdj_ok hclk hf]
    simp [State.adjStarted]

/-- Steps 4 and 5 done, alone on the bus: the delay value is written under its mask (R114). -/
def State.delaySet (s : State) (need : Bool) (dc : Word) : State :=
  (s.adjStarted need).afterMw (delayMaskWord s) dc

theorem hostAlone_adjStarted {s : State} (h : HostAlone s) (need : Bool) :
    HostAlone (s.adjStarted need) := ⟨h.1, h.2.mono rfl le_rfl rfl⟩

theorem hostAlone_delaySet {s : State} (h : HostAlone s) (need : Bool) (dc : Word) :
    HostAlone (s.delaySet need dc) := hostAlone_afterMw (hostAlone_adjStarted h need) _ _

/-- What is left after step 5: the mode's clocks, then the reference enable (R115 to R117). -/
theorem timingSteps_delaySet {s : State} {dc rxf : Word} {need : Bool} (h : HostAlone s)
    (hadj : adjCheck dc rxf s = .done (s.adjStarted need)) (mode : PhyMode) :
    timingSteps mode dc rxf s =
      (clockStep mode (s.delaySet need dc)).andThen (fun u => .done u.writeRef) := by
  have hdelay : (s.adjStarted need).writeDelay dc = s.delaySet need dc := by
    rw [State.writeDelay, mwEth0_alone (hostAlone_adjStarted h need), delayMask_word]
    rfl
  rw [timingSteps, hadj, done_andThen, done_andThen, hdelay]

/-- A failing step 4 ends the procedure (R113, R118). -/
theorem timingSteps_adjRaised {s u : State} {dc rxf : Word} {k : ErrKind} {g : Stage}
    (hadj : adjCheck dc rxf s = .raised k g u) (mode : PhyMode) :
    timingSteps mode dc rxf s = .raised k g u := by
  rw [timingSteps, hadj]
  rfl

/-- With a supported mode, a defined rx delay and a chain, TIMING.APPLY comes to its steps 4 to 7, and
step 4 asks for the adjustment clock exactly where the configuration needs it (R110 to R113). -/
theorem opOf_timingApply_steps {s : State} {c : Cfg} {n : Nat} (hcfg : s.cfg = some c)
    (hc : s.chain = .built n) (hm : ∀ x, c.mode ≠ .other x) (hrx : c.rxDelay = 0 ∨ c.rxDelay = 2) :
    ∃ rxf need, (need = true ↔ needsAdjClock s c.mode c.rxDelay) ∧
      adjEnBit (s.params.adjCheckOn.probe (delayValue c.mode c.txDelay c.rxDelay) rxf) = need ∧
      opOf .timingApply s =
        (timingSteps c.mode (delayValue c.mode c.txDelay c.rxDelay) rxf s).inStage .timingApply := by
  obtain ⟨rxf, hrxf⟩ := exists_rxField hrx
  have hdc := combine_eq_delayValue (tx := c.txDelay) hrxf hm
  refine ⟨rxf, _, adjEnBit_probe hrxf hdc, rfl, ?_⟩
  rw [opOf_timingApply hcfg, applyTiming, withChain_built hc, hrxf]
  dsimp only
  rw [hdc]

theorem adjClk_of_cfg {s : State} {c : Cfg} (hcfg : s.cfg = some c) : s.adjClk = c.adjClk := by
  rw [State.adjClk, hcfg]

/-! ## TIMING.APPLY in RMII (R116) -/

/-- RMII, alone on the bus and with step 4 done: the three masked writes, and no more. -/
theorem timingSteps_rmii {s : State} {dc rxf : Word} {need : Bool} (h : HostAlone s)
    (hadj : adjCheck dc rxf s = .done (s.adjStarted need)) :
    timingSteps .rmii dc rxf s =
      .done (((s.delaySet need dc).afterMw invM 0x00000800).afterMw refM 0x00001000) := by
  have hset := hostAlone_delaySet h need dc
  have hclock : clockStep .rmii (s.delaySet need dc) =
      .done ((s.delaySet need dc).afterMw invM 0x00000800) := by
    rw [← mwEth0_alone hset]
    rfl
  rw [timingSteps_delaySet h hadj, hclock, done_andThen, State.writeRef,
    mwEth0_alone (hostAlone_afterMw hset _ _)]

/-- Settles O42: in RMII the delay value is 0, and the three writes are the whole of steps 5 to 7. -/
theorem timingApplyRmii : Obligations.TimingApplyRmii := by
  intro s c n h hcfg hc hmode hrx hadj
  obtain ⟨rxf, need, hneed, hprobe, hop⟩ := opOf_timingApply_steps hcfg hc (by simp [hmode]) hrx
  have hdone := adjCheck_ok hprobe (fun hn => by
    rw [adjClk_of_cfg hcfg]
    exact hadj (hneed.1 hn))
  have hdc : delayValue c.mode c.txDelay c.rxDelay = 0 := by simp [delayValue, hmode]
  rw [hdc] at hop hdone
  rw [hmode, timingSteps_rmii h hdone] at hop
  refine ⟨_, (exec_host_advances (i := .timingApply) h.1 nofun nofun hop).1, ?_, ?_, rfl, ?_⟩
  · show merge (merge (merge s.reg0 (delayMaskWord s) 0) invM invM) refM refM = _
    rw [merge_ones, merge_ones, BitVec.or_assoc]
    simp [merge, invM, refM]
  · rw [← hneed]
    exact Bool.or_eq_true_iff
  · simp [State.delaySet, State.adjStarted]

/-! ## The clock of the RGMII family (R115) -/

/-- Two states in which a rate request has the same parents and the same select before it have the same
outcomes (R98). -/
theorem rateOutcome_congr {s u : State} (h0 : u.p0 = s.p0) (h1 : u.p1 = s.p1)
    (hsel : selBit u.reg0 = selBit s.reg0) (T : Rat) (c : RateChoice) :
    rateOutcome u T c = rateOutcome s T c := by
  unfold rateOutcome State.parentRate
  rw [h0, h1, hsel]

/-- Alone on the bus, a rate request of HOST leaves the parents' rates of the outcome, and besides PRG_ETH0
only its temporary, the log and the draws (R98). -/
theorem rateSet_frame {s : State} (h : HostAlone s) (hz : Nat) :
    s.rateSet hz = { s.chooseRate hz with
      reg0 := (s.rateSet hz).reg0
      t := (s.rateSet hz).t
      txns := (s.rateSet hz).txns
      env := { (s.chooseRate hz).env with nGap := (s.rateSet hz).env.nGap } } := by
  obtain ⟨hpart, _⟩ := rateSet_alone h.2 hz
  exact hpart.frame.trans (by rw [hpart.host h.1])

/-- Under the reference resolver it is the divisor's masked write, and the parents keep their rates
(R100). -/
theorem rateSet_reference {s : State} {n hz : Nat} (h : HostAlone s) (hc : s.chain = .built n)
    (h0 : 0 < hz) (hf : s.env.failAt 0 = false) (href : ReferenceResolver s) :
    let d := roundClosest (if s.reg0.getLsbD 4 then s.p1 else s.p0) (2 * (hz : Rat))
    (s.rateSet hz).reg0 = (s.reg0 &&& 0xFFFFFC7F) ||| BitVec.ofNat 32 (128 * d) ∧
      (s.rateSet hz).p0 = s.p0 ∧ (s.rateSet hz).p1 = s.p1 ∧
      (s.rateSet hz).txns.length = s.txns.length + 2 := by
  intro d
  obtain ⟨t, ht, hset, hd2, hd7, _⟩ := referenceResolverSetsOneDivisor s n hz h hc h0 hf href
  have hadv : (s.rateSet hz).advance = t :=
    Host.Outcome.next.inj ((exec_clkSetRate_host hc h0 hf h.1).symm.trans ht)
  have hd : d < 8 := by omega
  refine ⟨(congrArg State.reg0 hadv).trans ?_, (congrArg State.p0 hadv).trans (by rw [hset]; rfl),
    (congrArg State.p1 hadv).trans (by rw [hset]; rfl),
    (congrArg (fun u => u.txns.length) hadv).trans (by rw [hset]; simp)⟩
  rw [hset, ← divField_eq hd]
  exact (merge_divField s.reg0 hd).trans (by rw [divField_eq hd]; rfl)

/-- What CLK.ENABLE that does not fail leaves, alone on the bus: the count is one more, and where it was 0
the gate is open and the parents run (R101). -/
structure EnabledOnce (n : Nat) (s t : State) : Prop where
  reg0 : t.reg0 = s.reg0 ||| (if n = 0 then 0x00000400 else 0)
  txns : t.txns.length = s.txns.length + (if n = 0 then 2 else 0)
  frame : t = { s with
    reg0 := t.reg0
    run0 := if n = 0 then true else s.run0
    run1 := if n = 0 then true else s.run1
    chain := .built (n + 1)
    t := t.t
    txns := t.txns
    env := t.env }
  alone : HostAlone t

theorem enableChain_alone {s : State} {n : Nat} (h : HostAlone s) (hc : s.chain = .built n)
    (hf : s.env.failAt 0 = false) :
    ∃ t, enableChain .rgmiiTxEn s = .done t ∧ EnabledOnce n s t := by
  have h' : HostAlone s.popFail := ⟨h.1, h.2.mono rfl le_rfl rfl⟩
  cases n with
  | zero =>
    refine ⟨_, enableChain_first hc hf, ?_⟩
    rw [openGate_alone h']
    exact ⟨merge_gate_open s.reg0, by simp, rfl, h.1, h'.2.mono rfl (Nat.le_add_right _ 2) rfl⟩
  | succ n =>
    exact ⟨_, enableChain_again hc hf, BitVec.or_zero.symm, rfl, rfl, h.1,
      h.2.mono rfl (Nat.le_refl _) rfl⟩

/-- The state in which step 6 requests its rate, alone on the bus: the delays are set, the inversion is
cleared, and a place where others could have acted is passed (R115). -/
def State.rateReady (s : State) (need : Bool) (dc : Word) : State :=
  ((s.delaySet need dc).afterMw invM 0x00000000).gap 0

/-- The state in which step 6 enables the chain, alone on the bus. -/
def State.rateDone (s : State) (need : Bool) (dc : Word) : State :=
  ((s.rateReady need dc).rateSet Config.txRate).gap 0

/-- Where the request for `TX_RATE` ends: the member of `Outcomes(125 MHz)` that the choice drawn names
(R98, R115). -/
def State.txOutcome (s : State) : RateOutcome := rateOutcome s 250000000 s.env.rateNow

/-- What the divider is asked for, as the halving stage is below it (R95, R115). -/
theorem twice_txRate : 2 * (Config.txRate : Rat) = 250000000 := by norm_num [Config.txRate]

/-- What steps 4 to 6 may change up to the enable of the chain. -/
def TimingFrame (s t : State) : Prop :=
  t = { s with
    reg0 := t.reg0
    p0 := t.p0
    p1 := t.p1
    adjEnabled := t.adjEnabled
    t := t.t
    txns := t.txns
    env := t.env }

/-- What steps 4 and 5 and the cleared inversion leave of a TIMING.APPLY issued in `s`, alone on the bus
(R113 to R115). -/
structure DelaysDone (s : State) (need : Bool) (dc : Word) (u : State) : Prop where
  alone : HostAlone u
  frame : TimingFrame s u
  reg0 : u.reg0 = delayWritten s dc
  others : u.reg0 &&& 0x00001410 = s.reg0 &&& 0x00001410
  p0 : u.p0 = s.p0
  p1 : u.p1 = s.p1
  adjEnabled : u.adjEnabled = (s.adjEnabled || need)
  txns : u.txns.length = s.txns.length + 4
  failAt : ∀ k, u.env.failAt k = s.env.failAt (need.toNat + k)
  rateNow : u.env.rateNow = s.env.rateNow

theorem rateReady_spec {s : State} (h : HostAlone s) (need : Bool) {dc : Word}
    (hdc : dc &&& 0x00006060 = dc) : DelaysDone s need dc (s.rateReady need dc) := by
  have hset := hostAlone_afterMw (hostAlone_delaySet h need dc) invM 0x00000000
  have heq : s.rateReady need dc = { (s.delaySet need dc).afterMw invM 0x00000000 with
      env := { s.env with nFail := s.env.nFail + need.toNat, nGap := s.env.nGap + 5 } } := by
    rw [State.rateReady, gap_alone (hset.2.1 0)]
    rfl
  rw [heq]
  exact {
    alone := ⟨h.1, h.2.mono rfl (Nat.le_add_right _ _) rfl⟩
    frame := rfl
    reg0 := merge_delays hdc s
    others := (merge_keeps (by rfl)).trans (merge_keeps (delayMask_and_others s))
    p0 := rfl
    p1 := rfl
    adjEnabled := rfl
    txns := by simp [State.delaySet, State.adjStarted]
    failAt := fun k => by simp [Env.failAt, Nat.add_assoc]
    rateNow := rfl }

section
variable {s u : State} {need : Bool} {dc : Word} (hu : DelaysDone s need dc u)
include hu

theorem DelaysDone.chain : u.chain = s.chain := by rw [hu.frame]

theorem DelaysDone.select : selBit u.reg0 = selBit s.reg0 :=
  selBit_congr (and_eq_of_and_eq hu.others rfl)

/-- The rate request has the outcome it would have had before TIMING.APPLY (R98, R115). -/
theorem DelaysDone.outcome :
    rateOutcome u (2 * (Config.txRate : Rat)) u.env.rateNow = s.txOutcome := by
  rw [rateOutcome_congr hu.p0 hu.p1 hu.select, twice_txRate, hu.rateNow]
  rfl

theorem DelaysDone.referenceResolver (href : ReferenceResolver s) : ReferenceResolver u := by
  unfold ReferenceResolver at *
  rw [hu.rateNow, href, referenceChoice, referenceChoice, hu.select]

end

/-- What the request for `TX_RATE` leaves of a TIMING.APPLY issued in `s`, alone on the bus (R113 to R115). -/
structure RateRequested (s : State) (need : Bool) (dc : Word) (v : State) : Prop where
  alone : HostAlone v
  frame : TimingFrame s v
  keep : v.reg0 &&& ~~~rateBits = delayWritten s dc &&& ~~~rateBits
  enables : v.reg0 &&& 0x00001400 = s.reg0 &&& 0x00001400
  sel : selBit v.reg0 = s.txOutcome.sel
  div : divRaw v.reg0 = s.txOutcome.div
  p0 : v.p0 = s.txOutcome.p0
  p1 : v.p1 = s.txOutcome.p1
  adjEnabled : v.adjEnabled = (s.adjEnabled || need)
  txns : ∃ k, k ≤ 2 ∧ v.txns.length = s.txns.length + 4 + 2 * k
  failAt : ∀ k, v.env.failAt k = s.env.failAt (need.toNat + 1 + k)

theorem rateDone_spec {s : State} (h : HostAlone s) (need : Bool) {dc : Word}
    (hdc : dc &&& 0x00006060 = dc) : RateRequested s need dc (s.rateDone need dc) := by
  have hu := rateReady_spec h need hdc
  unfold State.rateDone
  generalize s.rateReady need dc = u at hu ⊢
  obtain ⟨hpart, hsel, hdiv⟩ := rateSet_alone hu.alone.2 Config.txRate
  rw [hu.outcome] at hsel hdiv
  have hset := rateSet_frame hu.alone Config.txRate
  rw [State.chooseRate, hu.outcome] at hset
  obtain ⟨k, hk, htxns⟩ := hpart.txns
  rw [gap_alone (hpart.alone.1 0)]
  generalize u.rateSet Config.txRate = v at *
  have hagent : v.agent = .host := by
    rw [hset]
    exact hu.alone.1
  exact {
    alone := ⟨hagent, hpart.alone.mono rfl (Nat.le_succ _) rfl⟩
    frame := by rw [hset, TimingFrame, hu.frame]
    keep := hpart.keep.trans (congrArg (· &&& ~~~rateBits) hu.reg0)
    enables := (and_eq_of_and_eq hpart.keep rfl).trans (and_eq_of_and_eq hu.others rfl)
    sel := hsel
    div := hdiv
    p0 := by rw [hset]
    p1 := by rw [hset]
    adjEnabled := by rw [hset]; exact hu.adjEnabled
    txns := ⟨k, hk, by rw [← hu.txns]; exact htxns⟩
    failAt := fun j => by
      rw [Nat.add_assoc, ← hu.failAt, hset]
      simp [Env.failAt, Nat.add_assoc] }

/-- Under the reference resolver, the divisor is the closest one and the parents keep their rates (R100). -/
theorem rateDone_reference {s : State} {n : Nat} (h : HostAlone s) (hc : s.chain = .built n) (need : Bool)
    {dc : Word} (hdc : dc &&& 0x00006060 = dc) (hf : s.env.failAt need.toNat = false)
    (href : ReferenceResolver s) :
    let d := roundClosest (if s.reg0.getLsbD 4 then s.p1 else s.p0) 250000000
    (s.rateDone need dc).reg0 = (delayWritten s dc &&& 0xFFFFFC7F) ||| BitVec.ofNat 32 (128 * d) ∧
      (s.rateDone need dc).p0 = s.p0 ∧ (s.rateDone need dc).p1 = s.p1 ∧
      (s.rateDone need dc).txns.length = s.txns.length + 6 := by
  have hu := rateReady_spec h need hdc
  have hsel : (s.rateReady need dc).reg0.getLsbD 4 = s.reg0.getLsbD 4 := hu.select
  have hset := rateSet_reference (hz := Config.txRate) hu.alone (hu.chain.trans hc) (by decide)
    ((hu.failAt 0).trans hf) (hu.referenceResolver href)
  rw [hsel, hu.p0, hu.p1, twice_txRate, hu.reg0, hu.txns] at hset
  obtain ⟨hpart, _⟩ := rateSet_alone hu.alone.2 Config.txRate
  rw [State.rateDone, gap_alone (hpart.alone.1 0)]
  exact hset

/-- The RGMII family is the supported modes but RMII (R12). -/
theorem isRgmiiFamily_iff {mode : PhyMode} :
    isRgmiiFamily mode = true ↔ mode ≠ .rmii ∧ ∀ x, mode ≠ .other x := by
  cases mode <;> simp [isRgmiiFamily]

/-! ## Steps 4 to 7 in the RGMII family (R113 to R117) -/

section
variable {s : State} {n : Nat} {mode : PhyMode} {dc rxf : Word} {need : Bool} (h : HostAlone s)
  (hm : isRgmiiFamily mode = true) (hadj : adjCheck dc rxf s = .done (s.adjStarted need))
include h hm hadj

theorem timingSteps_rateReady :
    timingSteps mode dc rxf s =
      (setRate .rgmiiTxEn Config.txRate (s.rateReady need dc)).andThen (fun v =>
        (enableChain .rgmiiTxEn (v.gap 0)).andThen (fun w => .done w.writeRef)) := by
  rw [timingSteps_delaySet h hadj, clockStep, if_pos hm, rgmiiClock,
    mwEth0_alone (hostAlone_delaySet h need dc), andThen_assoc]
  rfl

variable (hc : s.chain = .built n) (hdc : dc &&& 0x00006060 = dc)
include hc hdc

theorem timingSteps_rateFails (hf : s.env.failAt need.toNat = true) :
    timingSteps mode dc rxf s = .raised .rateSetFailed .clkSetRate (s.rateReady need dc).popFail := by
  have hu := rateReady_spec h need hdc
  rw [timingSteps_rateReady h hm hadj,
    setRate_fail (hu.chain.trans hc) (by decide) ((hu.failAt 0).trans hf)]
  rfl

theorem timingSteps_rateDone (hf : s.env.failAt need.toNat = false) :
    timingSteps mode dc rxf s =
      (enableChain .rgmiiTxEn (s.rateDone need dc)).andThen (fun w => .done w.writeRef) := by
  have hu := rateReady_spec h need hdc
  rw [timingSteps_rateReady h hm hadj,
    setRate_chooseRate (hu.chain.trans hc) (by decide) ((hu.failAt 0).trans hf)]
  rfl

theorem timingSteps_enableFails (hf : s.env.failAt need.toNat = false)
    (hf' : s.env.failAt (need.toNat + 1) = true) :
    timingSteps mode dc rxf s =
      .raised (.clockEnableFailed .rgmiiTx) .clkEnable (s.rateDone need dc).popFail := by
  have hv := rateDone_spec h need hdc
  have hchain : (s.rateDone need dc).chain = .built n := by rw [hv.frame, hc]
  rw [timingSteps_rateDone h hm hadj hc hdc hf, enableChain_fail hchain ((hv.failAt 0).trans hf')]
  rfl

theorem timingSteps_rgmii_done (hf : s.env.failAt need.toNat = false)
    (hf' : s.env.failAt (need.toNat + 1) = false) :
    ∃ w, EnabledOnce n (s.rateDone need dc) w ∧
      timingSteps mode dc rxf s = .done (w.afterMw refM 0x00001000) := by
  have hv := rateDone_spec h need hdc
  have hchain : (s.rateDone need dc).chain = .built n := by rw [hv.frame, hc]
  obtain ⟨w, hw, hen⟩ := enableChain_alone hv.alone hchain ((hv.failAt 0).trans hf')
  refine ⟨w, hen, ?_⟩
  rw [timingSteps_rateDone h hm hadj hc hdc hf, hw, done_andThen, State.writeRef, mwEth0_alone hen.alone]

end

/-- Alone on the bus and where nothing fails, TIMING.APPLY in the RGMII family completes: the request for
`TX_RATE`, the enable, and the reference enable (R109, R115, R117). -/
theorem exec_timingApply_rgmii {s : State} {c : Cfg} {n : Nat} (h : HostAlone s) (hcfg : s.cfg = some c)
    (hc : s.chain = .built n) (hm : isRgmiiFamily c.mode = true) (hrx : c.rxDelay = 0 ∨ c.rxDelay = 2)
    (hadj : needsAdjClock s c.mode c.rxDelay → c.adjClk = .present) (hn : NoFailure s 3) :
    ∃ need w, (need = true ↔ needsAdjClock s c.mode c.rxDelay) ∧ s.env.failAt need.toNat = false ∧
      EnabledOnce n (s.rateDone need (delayValue c.mode c.txDelay c.rxDelay)) w ∧
      exec .timingApply s = .next (w.afterMw refM 0x00001000).advance := by
  obtain ⟨_, hother⟩ := isRgmiiFamily_iff.1 hm
  obtain ⟨rxf, need, hneed, hprobe, hop⟩ := opOf_timingApply_steps hcfg hc hother hrx
  have hlt : need.toNat < 2 := need.toNat_lt
  have hf := hn need.toNat (by omega)
  have hdone := adjCheck_ok hprobe (fun hneeded =>
    ⟨(adjClk_of_cfg hcfg).trans (hadj (hneed.1 hneeded)), hn 0 (by omega)⟩)
  obtain ⟨w, hw, hsteps⟩ := timingSteps_rgmii_done h hm hdone hc (delayValue_under ..) hf
    (hn _ (by omega))
  rw [hsteps] at hop
  exact ⟨need, w, hneed, hf, hw, (exec_host_advances (i := .timingApply) h.1 nofun nofun hop).1⟩

section
variable {n : Nat} {v w : State} (hw : EnabledOnce n v w)
include hw

/-- Enabled and with the reference enable, PRG_ETH0 has those two bits more at most (R101, R117). -/
theorem EnabledOnce.reg0_afterRef : (w.afterMw refM 0x00001000).advance.reg0 =
    v.reg0 ||| (if n = 0 then 0x00001400 else 0x00001000) := by
  show merge w.reg0 refM refM = _
  rw [merge_ones, hw.reg0, BitVec.or_assoc]
  split <;> rfl

theorem EnabledOnce.txns_afterRef : (w.afterMw refM 0x00001000).advance.txns.length =
    v.txns.length + (if n = 0 then 4 else 2) := by
  rw [advance_txns, afterMw_txns, List.length_append, hw.txns]
  split <;> rfl

end

/-- Settles O41: the rate request ends in the outcome of the choice drawn, and the writes after it add bits
that no part of that outcome is in. -/
theorem timingApplyRgmiiFamily : Obligations.TimingApplyRgmiiFamily := by
  intro s c n h hcfg hc hm hrx hadj hn kept
  obtain ⟨need, w, hneed, hf, hw, hexec⟩ := exec_timingApply_rgmii h hcfg hc hm hrx hadj hn
  have hdc := delayValue_under c.mode c.txDelay c.rxDelay
  have hv := rateDone_spec h need hdc
  have hkept : kept = delayWritten s (delayValue c.mode c.txDelay c.rxDelay) |||
      (if n = 0 then 0x00001400 else 0x00001000) := rfl
  obtain ⟨k, hk, htxns⟩ := hv.txns
  refine ⟨_, s.txOutcome, hexec, rateOutcome_mem s _ _, ?_, ?_, ?_, ?_, ?_, ⟨k, hk, ?_⟩,
    fun href => ?_⟩
  · rw [hw.reg0_afterRef, hkept, BitVec.and_or_distrib_right, hv.keep, BitVec.and_or_distrib_right]
  · rw [hw.reg0_afterRef, selBit_or (by split <;> rfl), hv.sel]
  · rw [hw.reg0_afterRef, divRaw_or (by split <;> rfl), hv.div]
  · rw [← hneed, advance_adjEnabled, afterMw_adjEnabled, hw.frame, hv.adjEnabled]
    exact Bool.or_eq_true_iff
  · rw [hw.frame, hv.frame, ← hv.p0, ← hv.p1]
    rfl
  · rw [hw.txns_afterRef, htxns]
    split <;> omega
  · obtain ⟨hreg, hp0, hp1, hlen⟩ := rateDone_reference h hc need hdc hf href
    refine ⟨?_, ?_, ?_, ?_⟩
    · rw [hw.reg0_afterRef, hreg, hkept]
      exact or_outside (by split <;> rfl) _ _
    · rw [advance_p0, afterMw_p0, hw.frame, hp0]
    · rw [advance_p1, afterMw_p1, hw.frame, hp1]
    · rw [hw.txns_afterRef, hlen]
      split <;> omega

/-! ## TIMING.APPLY that fails (R113, R118) -/

/-- Every way step 4 can go. -/
theorem adjCheck_cases {s : State} {dc rxf : Word} {need : Bool}
    (hneed : adjEnBit (s.params.adjCheckOn.probe dc rxf) = need) :
    adjCheck dc rxf s = .done (s.adjStarted need) ∨
      adjCheck dc rxf s = .raised (.missingMandatoryClock .adjustment) .adjEnable s ∨
      adjCheck dc rxf s =
        .raised (.clockEnableFailed .adjustment) .adjEnable { s.popFail with adjEnabled := false } := by
  cases need with
  | false => exact .inl (adjCheck_ok hneed nofun)
  | true =>
    have hstart : adjCheck dc rxf s = startAdj false s := if_pos hneed
    rcases startAdj_cases false s with ⟨_, h⟩ | ⟨_, _, h⟩ | ⟨hclk, hf, _⟩
    · exact .inr (.inl (hstart.trans h))
    · exact .inr (.inr (hstart.trans h))
    · exact .inl (adjCheck_ok hneed (fun _ => ⟨hclk, hf⟩))

/-- The errors of a TIMING.APPLY issued in `s`, alone on the bus, and the state each is raised in. -/
inductive TimingFailure (s : State) (need : Bool) (dc : Word) : ErrKind → State → Prop
  | noClock : TimingFailure s need dc (.missingMandatoryClock .adjustment) s
  | clockFails : TimingFailure s need dc (.clockEnableFailed .adjustment)
      { s.popFail with adjEnabled := false }
  | rateFails : TimingFailure s need dc .rateSetFailed (s.rateReady need dc).popFail
  | enableFails : TimingFailure s need dc (.clockEnableFailed .rgmiiTx) (s.rateDone need dc).popFail

/-- A raise of steps 4 to 7 is one of the four: step 4 fails, or the rate request, or the enable after it. -/
theorem timingSteps_raised {s u : State} {n : Nat} {mode : PhyMode} {dc rxf : Word} {need : Bool}
    {k : ErrKind} {g : Stage} (h : HostAlone s) (hc : s.chain = .built n) (hm : ∀ x, mode ≠ .other x)
    (hneed : adjEnBit (s.params.adjCheckOn.probe dc rxf) = need) (hdc : dc &&& 0x00006060 = dc)
    (hr : timingSteps mode dc rxf s = .raised k g u) : TimingFailure s need dc k u := by
  rcases adjCheck_cases hneed with hadj | hadj | hadj
  · by_cases hrmii : mode = .rmii
    · rw [hrmii, timingSteps_rmii h hadj] at hr
      cases hr
    have hfam := isRgmiiFamily_iff.2 ⟨hrmii, hm⟩
    cases hf : s.env.failAt need.toNat with
    | true =>
      cases (timingSteps_rateFails h hfam hadj hc hdc hf).symm.trans hr
      exact .rateFails
    | false =>
      cases hf' : s.env.failAt (need.toNat + 1) with
      | true =>
        cases (timingSteps_enableFails h hfam hadj hc hdc hf hf').symm.trans hr
        exact .enableFails
      | false =>
        obtain ⟨w, _, hdone⟩ := timingSteps_rgmii_done h hfam hadj hc hdc hf hf'
        cases hdone.symm.trans hr
  · cases (timingSteps_adjRaised hadj mode).symm.trans hr
    exact .noClock
  · cases (timingSteps_adjRaised hadj mode).symm.trans hr
    exact .clockFails

/-- An operation of HOST that ends in a failed run, where the run had not failed before, has raised. -/
theorem exec_host_failed {i : Instr} {s t : State} {k : ErrKind} {g : Stage} (ha : s.agent = .host)
    (hi : i ≠ .orchRelease) (hinit : i ≠ .orchInit) (hs : s.result ≠ .failed k g)
    (h : exec i s = .next t) (ht : t.result = .failed k g) :
    ∃ u, opOf i s = .raised k g u ∧ t = u.failedWith k g := by
  have hrun := opOf_sameRun hinit s
  rcases settle_eq_next.1 (exec_next h hi).1 with ⟨u, hu, rfl⟩ | ⟨k', g', u, hu, rfl⟩
  · rw [hu] at hrun
    exact absurd (hrun.result.symm.trans ht) hs
  · rw [hu] at hrun
    rw [takeRaise_host (hrun.agent.trans ha)] at ht ⊢
    cases ht
    exact ⟨u, hu, rfl⟩

/-- A TIMING.APPLY that is not refused has a chain and a defined rx delay (R109, R111). -/
theorem exec_timingApply_domain {s t : State} {c : Cfg} (ha : s.agent = .host) (hcfg : s.cfg = some c)
    (h : exec .timingApply s = .next t) :
    (∃ n, s.chain = .built n) ∧ (c.rxDelay = 0 ∨ c.rxDelay = 2) := by
  obtain ⟨_, hreject⟩ := timingApplyRejectsBeforeWriting s ha
  obtain ⟨hnone, hdelay, _⟩ := hreject c hcfg
  have hc : s.chain ≠ .none := fun hc => by cases (hnone hc).symm.trans h
  refine ⟨exists_built hc, ?_⟩
  by_contra hrx
  obtain ⟨h0, h2⟩ := not_or.1 hrx
  cases (hdelay hc h0 h2).symm.trans h

/-- Settles O44: the operation raised, in one of the four ways, and nothing is undone. -/
theorem timingFailureKeepsWritesDone : Obligations.TimingFailureKeepsWritesDone := by
  intro s t c kind stage h hcfg hfresh hm hexec ht written
  obtain ⟨⟨n, hc⟩, hrx⟩ := exec_timingApply_domain h.1 hcfg hexec
  obtain ⟨u, hu, rfl⟩ := exec_host_failed (i := .timingApply) h.1 nofun nofun (hfresh kind stage) hexec ht
  obtain ⟨rxf, need, hneed, hprobe, hop⟩ := opOf_timingApply_steps hcfg hc hm hrx
  obtain ⟨rfl, g, hr⟩ := inStage_eq_raised.1 (hop.symm.trans hu)
  have hdc := delayValue_under c.mode c.txDelay c.rxDelay
  have hadj : ∀ b, b = (s.adjEnabled || need) →
      (b = true ↔ s.adjEnabled = true ∨ needsAdjClock s c.mode c.rxDelay) := by
    rintro b rfl
    rw [← hneed]
    exact Bool.or_eq_true_iff
  cases timingSteps_raised h hc hm hprobe hdc hr with
  | noClock => exact ⟨rfl, rfl, rfl, .inl ⟨.inl ⟨rfl, rfl⟩, rfl, rfl, rfl, rfl⟩⟩
  | clockFails => exact ⟨rfl, rfl, rfl, .inl ⟨.inr ⟨rfl, rfl⟩, rfl, rfl, rfl, rfl⟩⟩
  | rateFails =>
    have hv := rateReady_spec h need hdc
    generalize s.rateReady need (delayValue c.mode c.txDelay c.rxDelay) = v at hv ⊢
    refine ⟨rfl, and_eq_of_and_eq hv.others rfl, ?_,
      .inr (.inl ⟨rfl, hv.reg0, hv.p0, hv.p1, hadj _ hv.adjEnabled⟩)⟩
    rw [hv.frame]
    rfl
  | enableFails =>
    have hv := rateDone_spec h need hdc
    generalize s.rateDone need (delayValue c.mode c.txDelay c.rxDelay) = v at hv ⊢
    refine ⟨rfl, hv.enables, ?_, .inr (.inr ⟨rfl, hv.keep, ⟨s.txOutcome, rateOutcome_mem s _ _, hv.sel,
      hv.div, hv.p0, hv.p1⟩, hadj _ hv.adjEnabled⟩)⟩
    rw [hv.frame]
    rfl

end Sys2Proof.Machine

/-! # The configuration sequence (44_orchestration.md): the run up to each of its steps, the Programmed run
alone on the bus, the first error, and the run repeated after its release -/

namespace Sys2Proof.Machine

/-! ## The run up to TIMING.APPLY (R119 to R122) -/

/-- The configuration that ORCH.INIT acquires, its adjustment clock not yet looked up (R119). -/
def State.acquired (s : State) : Cfg :=
  ⟨phyModeOf s.desc.mode, s.params.family, s.desc.txDelay.getD 2, s.desc.rxDelay.getD 0, .absent⟩

/-- The state in which the steps after acquisition begin (R122). -/
def State.running (s : State) : State := { s with result := .running, cfg := some s.acquired }

/-- The end of a run in which every step is done (R122). -/
def State.programmed (s : State) : State := { s with result := .programmed }

theorem opOf_orchInit {s : State} (hidle : s.result = .idle) (hfam : s.desc.namesFamily = true) :
    opOf .orchInit s = (configure s.acquired s.running).andThen (fun u => .done u.programmed) := by
  have hacq : acquire s.params.family s.desc = some s.acquired := if_pos hfam
  simp only [opOf, orchInit, hidle, hacq, ne_eq, not_true_eq_false, if_false]
  rfl

/-- ORCH.INIT is HOST's from its first step to its last, raised or done. -/
theorem opOf_orchInit_agent {s : State} (hidle : s.result = .idle) (hfam : s.desc.namesFamily = true) :
    (opOf .orchInit s).All (fun u => u.agent = s.agent) := by
  rw [opOf_orchInit hidle hfam]
  exact (configure_sameRun (c := s.acquired) (s := s.running) rfl).andThen (fun _ hu => hu.agent)
    (fun _ hu => hu.agent)

/-- The answer to the clock lookup that finds the clock so (R121). -/
def AdjClk.answer : AdjClk → AdjLookup
  | .absent => .absent
  | .present => .present

/-- The answer to the clock lookup that fails in the variant `v` (R121, R127). -/
def Acquisition.adjAnswer : Acquisition → AdjLookup
  | .transient => .transient
  | .permanent => .permanent

theorem adjLookup_cases (a : AdjLookup) :
    (∃ k : AdjClk, a = k.answer) ∨ ∃ v : Acquisition, a = v.adjAnswer := by
  cases a
  case absent => exact .inl ⟨.absent, rfl⟩
  case present => exact .inl ⟨.present, rfl⟩
  case transient => exact .inr ⟨.transient, rfl⟩
  case permanent => exact .inr ⟨.permanent, rfl⟩

/-- The configuration held from the clock lookup on (R121). -/
def State.foundCfg (s : State) (k : AdjClk) : Cfg := { s.acquired with adjClk := k }

/-- The clock lookup of a run, done: the answer is in the configuration, and a clock that is there is
held (R121). -/
def State.adjFound (s : State) (k : AdjClk) : State :=
  { s with
    adjHeld := s.adjHeld || decide (k = .present)
    cfg := some (s.foundCfg k)
    result := .running
    env := { s.env with nAdj := s.env.nAdj + 1 } }

theorem acquireAdj_found {s : State} {k : AdjClk} (h : s.env.adjNow = k.answer) :
    acquireAdj s.acquired s.running = .done (s.adjFound k) := by
  cases k <;> simp [acquireAdj, State.running, h, AdjClk.answer, State.adjFound, State.foundCfg]

theorem acquireAdj_fails {s : State} {v : Acquisition} (h : s.env.adjNow = v.adjAnswer) :
    acquireAdj s.acquired s.running =
      .raised (.clockAcquisitionFailed v .adjustment) .acquireAdj s.running.popAdj := by
  cases v <;> simp [acquireAdj, State.running, h, Acquisition.adjAnswer]

/-- PHYMODE.APPLY and TIMING.APPLY as a run calls them, and its end (R122). -/
def applyConfig (c : Cfg) (s : State) : Res :=
  (applyPhyMode c.mode c.family s).andThen (fun u =>
    (applyTiming c.mode c.txDelay c.rxDelay u).andThen (fun v => .done v.programmed))

/-- HOST alone issues ORCH.INIT, and it gets past the validation of the delay (R119, R120, R122). -/
structure BeginsRun (s : State) : Prop where
  alone : HostAlone s
  idle : s.result = .idle
  family : s.desc.namesFamily = true
  delay : s.desc.rxDelay.getD 0 = 0 ∨ s.desc.rxDelay.getD 0 = 2

section
variable {s : State} (h : BeginsRun s)
include h

theorem BeginsRun.opOf_eq :
    opOf .orchInit s = ((acquireAdj s.acquired s.running).andThen buildChain).andThen
      (applyConfig s.acquired) := by
  rw [opOf_orchInit h.idle h.family, configure, validateDelay_done h.delay, done_andThen,
    andThen_assoc, andThen_assoc]
  rfl

theorem BeginsRun.adjFails {v : Acquisition} (hv : s.env.adjNow = v.adjAnswer) :
    opOf .orchInit s =
      .raised (.clockAcquisitionFailed v .adjustment) .acquireAdj s.running.popAdj := by
  rw [h.opOf_eq, acquireAdj_fails hv]
  rfl

theorem BeginsRun.opOf_found {k : AdjClk} (hk : s.env.adjNow = k.answer) :
    opOf .orchInit s = (buildChain (s.adjFound k)).andThen (applyConfig s.acquired) := by
  rw [h.opOf_eq, acquireAdj_found hk, done_andThen]

theorem BeginsRun.buildFails {k : AdjClk} {e : ErrKind} {g : Stage} {u : State}
    (hk : s.env.adjNow = k.answer) (hb : buildChain (s.adjFound k) = .raised e g u) :
    opOf .orchInit s = .raised e g u := by
  rw [h.opOf_found hk, hb, raised_andThen]

end

/-- The chain of a run is built (R87). -/
def State.chainUp (s : State) (k : AdjClk) : State :=
  { s with
    chain := .built 0
    stages := allStages.foldl withStage s.stages
    par0Held := true
    par1Held := true
    adjHeld := s.adjHeld || decide (k = .present)
    cfg := some (s.foundCfg k)
    result := .running
    env := { s.env with
      nFail := s.env.nFail + 4
      nLookup := s.env.nLookup + 2
      nAdj := s.env.nAdj + 1 } }

theorem hostAlone_chainUp {s : State} (h : HostAlone s) (k : AdjClk) : HostAlone (s.chainUp k) :=
  ⟨h.1, h.2.mono rfl le_rfl rfl⟩

/-- A run that gets as far as PHYMODE.APPLY: the adjustment clock is looked up, found or not, and the chain
is built (R87, R121, R122). -/
structure BuildsChain (s : State) (k : AdjClk) : Prop extends BeginsRun s where
  adj : s.env.adjNow = k.answer
  lookup0 : s.env.lookupAt 0 = .ok
  lookup1 : s.env.lookupAt 1 = .ok
  registered : NoFailure s 4

theorem BuildsChain.opOf_eq {s : State} {k : AdjClk} (h : BuildsChain s k) :
    opOf .orchInit s = applyConfig s.acquired (s.chainUp k) := by
  rw [h.opOf_found h.adj, buildChain_succeeds (s := s.adjFound k) h.lookup0 h.lookup1 h.registered]
  rfl

theorem BuildsChain.modeFails {s : State} {k : AdjClk} (h : BuildsChain s k) {x : String}
    (hx : phyModeOf s.desc.mode = .other x) :
    opOf .orchInit s = .raised (.invalidPhyMode (.other x)) .phymodeApply (s.chainUp k) := by
  have hmode : s.acquired.mode = .other x := hx
  rw [h.opOf_eq, applyConfig, hmode, applyPhyMode_other]
  rfl

/-! ## The mode field (R105 to R107) -/

/-- The pair of a supported mode, by its family (R106, R107). -/
theorem modePair_eq {mode : PhyMode} (hm : ∀ x, mode ≠ .other x) (f : Family) :
    modePair f mode = some (modeMask f, modeValue f mode) := by
  cases mode with
  | other x => exact absurd rfl (hm x)
  | rgmii | rgmiiRxid | rgmiiId | rgmiiTxid | rmii => cases f <;> rfl

/-- The mode field written, in PRG_ETH0 (R106, R107). -/
theorem merge_mode (w : Word) (f : Family) (mode : PhyMode) :
    merge w (modeMask f) (modeValue f mode) = (w &&& modeKeep f) ||| modeValue f mode := by
  have hkeep : modeKeep f = ~~~modeMask f := by cases f <;> rfl
  rw [hkeep]
  refine merge_of_under ?_ w
  unfold modeValue
  cases f <;> split <;> rfl

/-- The state in which the TIMING.APPLY of a run begins, alone on the bus (R105, R122). -/
def State.modeSet (s : State) (k : AdjClk) : State :=
  (s.chainUp k).afterMw (modeMask s.params.family)
    (modeValue s.params.family (phyModeOf s.desc.mode))

theorem modeSet_reg0 (s : State) (k : AdjClk) : (s.modeSet k).reg0 =
    (s.reg0 &&& modeKeep s.params.family) ||| modeValue s.params.family (phyModeOf s.desc.mode) :=
  merge_mode _ _ _

theorem modeSet_selBit (s : State) (k : AdjClk) : selBit (s.modeSet k).reg0 = selBit s.reg0 := by
  refine selBit_congr (merge_keeps ?_)
  cases s.params.family <;> rfl

theorem modeSet_failAt (s : State) (k : AdjClk) (j : Nat) :
    (s.modeSet k).env.failAt j = s.env.failAt (4 + j) :=
  failAt_registered (s.adjFound k).parentsHeld allStages 4 j

theorem modeSet_referenceResolver {s : State} (h : ReferenceResolver s) (k : AdjClk) :
    ReferenceResolver (s.modeSet k) := by
  unfold ReferenceResolver referenceChoice at *
  rw [modeSet_selBit]
  exact h

/-- The rate request of a run has the outcomes it would have had before the run (R98). -/
theorem outcomes_of_modeSet {s : State} {k : AdjClk} {T : Rat} {o : RateOutcome}
    (h : Outcomes (s.modeSet k) T o) : Outcomes s T o := by
  unfold Outcomes at *
  rw [modeSet_selBit] at h
  exact h

/-! ## TIMING.APPLY as the last step of a run (R109, R122) -/

/-- A run that gets as far as TIMING.APPLY (R122). -/
structure ReachesTiming (s : State) (k : AdjClk) : Prop extends BuildsChain s k where
  supported : ∀ x, phyModeOf s.desc.mode ≠ .other x

section
variable {s : State} {k : AdjClk} (h : ReachesTiming s k)
include h

theorem ReachesTiming.aloneModeSet : HostAlone (s.modeSet k) :=
  hostAlone_afterMw (hostAlone_chainUp h.alone k) _ _

theorem ReachesTiming.opOf_timing :
    opOf .orchInit s =
      (opOf .timingApply (s.modeSet k)).andThen (fun u => .done u.programmed) := by
  have hmode : applyPhyMode s.acquired.mode s.acquired.family (s.chainUp k) =
      .done (s.modeSet k) := by
    have hpair : modePair s.acquired.family s.acquired.mode = _ := modePair_eq h.supported _
    rw [applyPhyMode, hpair, State.modeSet, ← mwEth0_alone (hostAlone_chainUp h.alone k)]
    rfl
  rw [h.opOf_eq, applyConfig, hmode, done_andThen, opOf_timingApply (c := s.foundCfg k) rfl]
  rfl

/-- Where TIMING.APPLY by itself would complete, the run does, and ends Programmed (R122). -/
theorem ReachesTiming.exec_programmed {t : State} (ht : exec .timingApply (s.modeSet k) = .next t)
    (hrun : t.result = .running) : exec .orchInit s = .next t.programmed := by
  have halone := h.aloneModeSet
  have hsame := opOf_sameRun (i := .timingApply) nofun (s.modeSet k)
  rcases settle_eq_next.1 (exec_next ht nofun).1 with ⟨u, hu, rfl⟩ | ⟨e, g, u, hu, rfl⟩
  · have hop := h.opOf_timing
    rw [hu, done_andThen] at hop
    exact exec_host_done (i := .orchInit) h.alone.1 nofun hop
  · rw [hu] at hsame
    rw [takeRaise_host (hsame.agent.trans halone.1)] at hrun
    cases hrun

end

/-! ## Where a run alone on the bus ends Programmed (R142) -/

/-- The clock lookup found the adjustment clock, or found that it is absent (R121). -/
theorem exists_adjAnswer {s : State} (h : s.env.adjNow = .present ∨ s.env.adjNow = .absent) :
    ∃ k : AdjClk, s.env.adjNow = k.answer :=
  h.elim (fun h => ⟨.present, h⟩) (fun h => ⟨.absent, h⟩)

theorem AdjClk.answer_present {k : AdjClk} : k.answer = .present ↔ k = .present := by
  cases k <;> simp [AdjClk.answer]

/-- The configuration's clock, from the answer (R39, R121). -/
theorem AdjClk.eq_ite {a : AdjLookup} {k : AdjClk} (h : a = k.answer) :
    k = if a = .present then .present else .absent := by
  cases k <;> rw [h] <;> rfl

/-- The mode's value is not touched by the delay write (R106, R107, R114). -/
theorem modeValue_outside_delays (f : Family) (mode : PhyMode) (s : State) :
    modeValue f mode &&& ~~~delayMaskWord s = modeValue f mode := by
  unfold modeValue delayMaskWord
  cases f <;> split <;> cases s.params.delayMask <;> rfl

/-- The mode written, then the delay fields cleared, as a run in RMII does (R106, R107, R114). -/
theorem modeSet_delaysCleared (s : State) (k : AdjClk) :
    (s.modeSet k).reg0 &&& ~~~delayMaskWord s =
      (s.reg0 &&& modeKeep s.params.family &&& ~~~delayMaskWord s) |||
        modeValue s.params.family (phyModeOf s.desc.mode) := by
  rw [modeSet_reg0, BitVec.and_or_distrib_right, modeValue_outside_delays]

/-- Settles O46. -/
theorem orchInitProgramsRmii : Obligations.OrchInitProgramsRmii := by
  refine ⟨fun s h hidle hfam hmode hrx hadj hneed h0 h1 hn => ?_, fun s ha hres => ?_,
    fun s ha hidle hfam => ?_⟩
  · obtain ⟨k, hk⟩ := exists_adjAnswer hadj
    have hr : ReachesTiming s k := ⟨⟨⟨h, hidle, hfam, hrx⟩, hk, h0, h1, hn⟩, by simp [hmode]⟩
    have hclock : needsAdjClock s (phyModeOf s.desc.mode) (s.desc.rxDelay.getD 0) →
        k = .present ∧ (s.modeSet k).env.failAt 0 = false := by
      rw [hmode]
      intro hneeded
      obtain ⟨hpresent, hf⟩ := hneed hneeded
      exact ⟨AdjClk.answer_present.1 (hk.symm.trans hpresent), (modeSet_failAt s k 0).trans hf⟩
    obtain ⟨t, hexec, hreg, hadjt, hframe, htxns⟩ := timingApplyRmii (s.modeSet k) (s.foundCfg k) 0
      hr.aloneModeSet rfl rfl hmode hrx hclock
    have hfound : (s.foundCfg k).mode = .rmii := hmode
    rw [hfound] at hadjt
    have hreg' : t.reg0 = _ := hreg.trans (congrArg (· ||| 0x00001800) (modeSet_delaysCleared s k))
    rw [hmode] at hreg'
    have hlen : t.txns.length = s.txns.length + 8 := htxns.trans (by simp [State.modeSet, State.chainUp])
    have hrun : t.result = .running := by rw [hframe]; rfl
    refine ⟨_, hr.exec_programmed hexec hrun, rfl, hreg', ?_, hadjt, ?_, ?_, ?_, ?_, ?_, ?_, hlen⟩ <;>
      (rw [hframe]; rfl)
  · exact exec_host_refused (i := .orchInit) ha nofun (if_pos hres)
  · refine exec_host_refused (i := .orchInit) ha nofun ?_
    simp [opOf, orchInit, hidle, acquire, hfam]

/-- The delay value of a run (R112). -/
def State.delays (s : State) : Word :=
  delayValue (phyModeOf s.desc.mode) (s.desc.txDelay.getD 2) (s.desc.rxDelay.getD 0)

theorem delays_under (s : State) : s.delays &&& 0x00006060 = s.delays := delayValue_under ..

/-- PRG_ETH0 after a run in the RGMII family, but for the rate bits (R142). -/
def State.rgmiiKept (s : State) : Word :=
  (s.reg0 &&& modeKeep s.params.family &&& ~~~delayMaskWord s &&& 0xFFFFF7FF) ||| 0x00001401 |||
    s.delays

/-- The mode written before the delays adds the mode's value to what TIMING.APPLY keeps. -/
theorem rgmiiKept_eq {s : State} (hm : phyModeOf s.desc.mode ≠ .rmii) (k : AdjClk) :
    delayWritten (s.modeSet k) s.delays ||| 0x00001400 = s.rgmiiKept := by
  have hone : (1 : Word) &&& ~~~delayMaskWord s &&& 0xFFFFF7FF = 1 := by
    unfold delayMaskWord
    split <;> rfl
  have hmask : delayMaskWord (s.modeSet k) = delayMaskWord s := rfl
  have hmode : modeValue s.params.family (phyModeOf s.desc.mode) = 1 := if_neg hm
  rw [delayWritten, hmask, modeSet_reg0, hmode, BitVec.and_or_distrib_right,
    BitVec.and_or_distrib_right, hone, BitVec.or_assoc, BitVec.or_comm s.delays, ← BitVec.or_assoc,
    BitVec.or_assoc _ 1]
  rfl

theorem gateBit_congr {a b : Word} (h : a &&& gateM = b &&& gateM) : gateBit a = gateBit b := by
  have hand : ∀ w : Word, gateBit w = gateBit (w &&& gateM) := fun w => by simp [gateBit, gateM]
  rw [hand a, h, ← hand b]

theorem gateBit_rgmiiKept (s : State) : gateBit s.rgmiiKept = true := by
  simp [gateBit, State.rgmiiKept]

/-! ## PRG_ETH0 after a run under the reference resolver (R100, R142) -/

/-- The bits of PRG_ETH0 that a run in the RGMII family keeps under the reference resolver. -/
def State.rgmiiMask (s : State) : Word :=
  modeKeep s.params.family &&& ~~~delayMaskWord s &&& 0xFFFFF7FF &&& 0xFFFFFC7F

/-- The divisor of a run under the reference resolver (R100, R115). -/
def State.referenceDiv (s : State) : Nat :=
  roundClosest (s.parentRate (selBit s.reg0)) 250000000

/-- The mode write, which keeps the select, leaves that divisor as it is. -/
theorem modeSet_referenceDiv (s : State) (k : AdjClk) :
    (s.modeSet k).referenceDiv = s.referenceDiv := by
  rw [State.referenceDiv, modeSet_selBit]
  rfl

/-- An outcome that keeps the select and the parents' rates has that divisor (R98, R100). -/
theorem outcome_reference {s : State} {o : RateOutcome} (ho : Outcomes s 250000000 o)
    (hsel : o.sel = selBit s.reg0) (hp0 : o.p0 = s.p0) (hp1 : o.p1 = s.p1) :
    o.parent = s.parentRate (selBit s.reg0) ∧ o.div = s.referenceDiv := by
  obtain ⟨_, _, _, hclosest⟩ := ho
  have hparent : o.parent = s.parentRate o.sel := by
    rw [RateOutcome.parent, State.parentRate, hp0, hp1]
  rw [State.referenceDiv, ← hsel]
  exact ⟨hparent, hclosest hsel hparent⟩

/-- The bits that such a run sets: the mode, the gate, the reference enable, the delays, the divisor. -/
def State.rgmiiBits (s : State) : Word :=
  0x00001401 ||| s.delays ||| BitVec.ofNat 32 (128 * s.referenceDiv)

theorem rgmiiKept_reference (s : State) :
    (s.rgmiiKept &&& 0xFFFFFC7F) ||| BitVec.ofNat 32 (128 * s.referenceDiv) =
      (s.reg0 &&& s.rgmiiMask) ||| s.rgmiiBits := by
  have hset : (0x00001401 ||| s.delays) &&& 0xFFFFFC7F = 0x00001401 ||| s.delays := by
    rw [BitVec.and_or_distrib_right, and_of_delayFields (delays_under s) rfl]
    rfl
  rw [State.rgmiiKept, BitVec.or_assoc _ _ s.delays, BitVec.and_or_distrib_right, hset,
    BitVec.or_assoc]
  simp only [State.rgmiiMask, State.rgmiiBits, BitVec.and_assoc]

/-- The select is kept where its bit is under the mask and not among the bits set. -/
theorem selBit_and_or {m x : Word} (hm : selBit m = true) (hx : selBit x = false) (w : Word) :
    selBit ((w &&& m) ||| x) = selBit w := by
  rw [selBit_or hx]
  unfold selBit at *
  rw [BitVec.getLsbD_and, hm, Bool.and_true]

theorem selBit_rgmiiMask (s : State) : selBit s.rgmiiMask = true := by
  unfold State.rgmiiMask modeKeep delayMaskWord
  cases s.params.family <;> cases s.params.delayMask <;> rfl

theorem selBit_rgmiiBits (s : State) : selBit s.rgmiiBits = false := by
  have hdelays : selBit s.delays = false := by
    rw [← delays_under, selBit, BitVec.getLsbD_and]
    exact Bool.and_false _
  have hd : s.referenceDiv < 8 := by
    obtain ⟨_, h7⟩ := roundClosest_mem (s.parentRate (selBit s.reg0)) 250000000
    exact Nat.lt_succ_of_le h7
  have hdiv : selBit (BitVec.ofNat 32 (128 * s.referenceDiv)) = false := by
    interval_cases s.referenceDiv <;> rfl
  rw [State.rgmiiBits, selBit_or hdiv, selBit_or hdelays]
  rfl

/-- With the chain enabled and the gate open, the TX clock runs at the selected parent's rate over twice the
divisor (R88 to R92). -/
theorem freqOut_enabled {t : State} {o : RateOutcome} {n : Nat} (hc : t.chain = .built (n + 1))
    (hgate : gateBit t.reg0 = true) (hsel : selBit t.reg0 = o.sel) (hdiv : divRaw t.reg0 = o.div)
    (hp0 : t.p0 = o.p0) (hp1 : t.p1 = o.p1) (hmem : o.div ∈ Config.divisors) :
    t.freqOut = .hz (o.parent / (2 * (o.div : Rat))) := by
  have hrun : t.parentRuns (selBit t.reg0) = true := by simp [State.parentRuns, hc, Chain.enabled]
  obtain ⟨_, _, hfixed⟩ := freq_running hrun
  have hparent : t.parentRate (selBit t.reg0) = o.parent := by
    rw [State.parentRate, RateOutcome.parent, hsel, hp0, hp1]
  rw [State.freqOut, if_pos hgate, hfixed, hparent, hdiv, hwDiv, if_pos hmem]

/-- Settles O45. -/
theorem orchInitProgramsRgmiiFamily : Obligations.OrchInitProgramsRgmiiFamily := by
  intro s mode h hidle hfam hmode hm hrx hadj h0 h1 hn fam tx rx kept
  subst hmode
  obtain ⟨hrmii, hother⟩ := isRgmiiFamily_iff.1 hm
  obtain ⟨k, hk⟩ := exists_adjAnswer (hadj.imp_right And.left)
  have hr : ReachesTiming s k :=
    ⟨⟨⟨h, hidle, hfam, hrx⟩, hk, h0, h1, fun j hj => hn j (by omega)⟩, hother⟩
  have hclock : needsAdjClock s (phyModeOf s.desc.mode) (s.desc.rxDelay.getD 0) → k = .present :=
    fun hneeded => AdjClk.answer_present.1
      (hk.symm.trans (hadj.resolve_right (fun habs => habs.2 hneeded)))
  have hnf : NoFailure (s.modeSet k) 3 := fun j hj =>
    (modeSet_failAt s k j).trans (hn (4 + j) (by omega))
  obtain ⟨t, o, hexec, ho, hreg, hsel, hdiv, hadjt, hframe, ⟨j, hj, htxns⟩, href⟩ :=
    timingApplyRgmiiFamily (s.modeSet k) (s.foundCfg k) 0 hr.aloneModeSet rfl rfl hm hrx hclock hnf
  have hreg' : t.reg0 &&& ~~~rateBits = s.rgmiiKept &&& ~~~rateBits :=
    hreg.trans (congrArg (· &&& ~~~rateBits) (rgmiiKept_eq hrmii k))
  have hgate : gateBit t.reg0 = true :=
    (gateBit_congr (and_eq_of_and_eq hreg' rfl)).trans (gateBit_rgmiiKept s)
  have hp0 : t.p0 = o.p0 := by rw [hframe]
  have hp1 : t.p1 = o.p1 := by rw [hframe]
  have hchain : t.chain = .built 1 := by rw [hframe]
  have ho' : Outcomes s 250000000 o := outcomes_of_modeSet ho
  have ⟨hmem, _⟩ := ho'
  have hfreq : t.programmed.freqOut = .hz (o.parent / (2 * (o.div : Rat))) :=
    freqOut_enabled (t := t.programmed) hchain hgate hsel hdiv hp0 hp1 hmem
  have hlen : (s.modeSet k).txns.length = s.txns.length + 2 := by
    simp [State.modeSet, State.chainUp]
  have hrun : t.result = .running := by rw [hframe]; rfl
  refine ⟨_, o, hr.exec_programmed hexec hrun, ho', rfl, hreg', hsel, hdiv, hp0, hp1, hchain, hfreq,
    hadjt, ?_, ?_, ?_, ⟨j, hj, ?_⟩, fun hs => ?_⟩
  · rw [hframe]
    exact congrArg (fun a => some { s.acquired with adjClk := a }) (AdjClk.eq_ite hk)
  · rw [hframe]; rfl
  · rw [hframe]; rfl
  · exact htxns.trans (by rw [hlen]; rfl)
  · obtain ⟨hregR, hp0R, hp1R, hlenR⟩ := href (modeSet_referenceResolver hs k)
    have hregS : t.reg0 = (s.rgmiiKept &&& 0xFFFFFC7F) ||| BitVec.ofNat 32 (128 * s.referenceDiv) := by
      rw [← modeSet_referenceDiv s k, ← rgmiiKept_eq hrmii k]
      exact hregR
    have hselS : o.sel = selBit s.reg0 := by
      rw [← hsel, hregS, rgmiiKept_reference,
        selBit_and_or (selBit_rgmiiMask s) (selBit_rgmiiBits s)]
    obtain ⟨hparent, hdivS⟩ := outcome_reference ho' hselS (hp0.symm.trans hp0R) (hp1.symm.trans hp1R)
    rw [hparent, hdivS] at hfreq
    exact ⟨hregS, hfreq, hp0R, hp1R, hlenR.trans (by rw [hlen]; rfl)⟩
/-! ## Every way the steps of a run can end (R118, R130) -/

/-- Steps 4 to 7, alone on the bus: they raise, or end as RMII does, or as the RGMII family does, which
the environment's answers decide (R113 to R118). -/
theorem timingSteps_ends {s : State} {n : Nat} {mode : PhyMode} {dc rxf : Word} {need : Bool}
    (h : HostAlone s) (hc : s.chain = .built n) (hm : ∀ x, mode ≠ .other x)
    (hneed : adjEnBit (s.params.adjCheckOn.probe dc rxf) = need) (hdc : dc &&& 0x00006060 = dc) :
    (∃ e g u, timingSteps mode dc rxf s = .raised e g u) ∨
    (mode = .rmii ∧ timingSteps mode dc rxf s =
      .done (((s.delaySet need dc).afterMw invM 0x00000800).afterMw refM 0x00001000)) ∨
    (isRgmiiFamily mode = true ∧ s.env.failAt need.toNat = false ∧
      ∃ w, EnabledOnce n (s.rateDone need dc) w ∧
        timingSteps mode dc rxf s = .done (w.afterMw refM 0x00001000)) := by
  rcases adjCheck_cases hneed with hadj | hadj | hadj
  · by_cases hrmii : mode = .rmii
    · subst hrmii
      exact .inr (.inl ⟨rfl, timingSteps_rmii h hadj⟩)
    have hfam := isRgmiiFamily_iff.2 ⟨hrmii, hm⟩
    cases hf : s.env.failAt need.toNat with
    | true => exact .inl ⟨_, _, _, timingSteps_rateFails h hfam hadj hc hdc hf⟩
    | false =>
      cases hf' : s.env.failAt (need.toNat + 1) with
      | true => exact .inl ⟨_, _, _, timingSteps_enableFails h hfam hadj hc hdc hf hf'⟩
      | false => exact .inr (.inr ⟨hfam, rfl, timingSteps_rgmii_done h hfam hadj hc hdc hf hf'⟩)
  · exact .inl ⟨_, _, _, timingSteps_adjRaised hadj mode⟩
  · exact .inl ⟨_, _, _, timingSteps_adjRaised hadj mode⟩

/-- A run that is not ended by an error before TIMING.APPLY reaches it (R130). -/
theorem BeginsRun.raises_or_reachesTiming {s : State} (h : BeginsRun s) :
    (∃ e g u, opOf .orchInit s = .raised e g u) ∨ ∃ k, ReachesTiming s k := by
  rcases adjLookup_cases s.env.adjNow with ⟨k, hk⟩ | ⟨v, hv⟩
  · rcases lookup_cases (s.env.lookupAt 0) with h0 | ⟨v, h0⟩
    · rcases lookup_cases (s.env.lookupAt 1) with h1 | ⟨v, h1⟩
      · rcases noFailure_or_first s 4 with hok | ⟨j, hj, hok, hf⟩
        · have hb : BuildsChain s k := ⟨h, hk, h0, h1, hok⟩
          by_cases hx : ∃ x, phyModeOf s.desc.mode = .other x
          · obtain ⟨x, hx⟩ := hx
            exact .inl ⟨_, _, _, hb.modeFails hx⟩
          · exact .inr ⟨k, hb, not_exists.1 hx⟩
        · have hn : allStages[j]? = some allStages[j] := List.getElem?_eq_getElem hj
          exact .inl ⟨_, _, _, h.buildFails hk
            (buildChain_registration_fails (s := s.adjFound k) h0 h1 hn hok hf)⟩
      · exact .inl ⟨_, _, _, h.buildFails hk (buildChain_lookup1_fails (s := s.adjFound k) h0 h1)⟩
    · exact .inl ⟨_, _, _, h.buildFails hk (buildChain_lookup0_fails (s := s.adjFound k) h0)⟩
  · exact .inl ⟨_, _, _, h.adjFails hv⟩

section
variable {s : State} {k : AdjClk} (h : ReachesTiming s k)
include h

/-- From there on a run is steps 4 to 7, and step 4 asks for the adjustment clock exactly where the
configuration needs it (R113, R122). -/
theorem ReachesTiming.steps :
    ∃ rxf need,
      (need = true ↔ needsAdjClock s (phyModeOf s.desc.mode) (s.desc.rxDelay.getD 0)) ∧
      adjEnBit ((s.modeSet k).params.adjCheckOn.probe s.delays rxf) = need ∧
      opOf .orchInit s =
        ((timingSteps (phyModeOf s.desc.mode) s.delays rxf (s.modeSet k)).inStage
          .timingApply).andThen (fun u => .done u.programmed) := by
  obtain ⟨rxf, need, hneed, hprobe, hop⟩ := opOf_timingApply_steps (s := s.modeSet k)
    (c := s.foundCfg k) (n := 0) rfl rfl h.supported h.delay
  refine ⟨rxf, need, hneed, hprobe, ?_⟩
  rw [h.opOf_timing, hop]
  rfl

/-- Every way it can end from there (R118, R142). -/
theorem ReachesTiming.ends :
    (∃ e g u, opOf .orchInit s = .raised e g u) ∨
    (phyModeOf s.desc.mode = .rmii ∧ ∃ need, opOf .orchInit s =
      .done ((((s.modeSet k).delaySet need s.delays).afterMw invM 0x00000800).afterMw
        refM 0x00001000).programmed) ∨
    (isRgmiiFamily (phyModeOf s.desc.mode) = true ∧ ∃ need w,
      (s.modeSet k).env.failAt need.toNat = false ∧
      EnabledOnce 0 ((s.modeSet k).rateDone need s.delays) w ∧
      opOf .orchInit s = .done (w.afterMw refM 0x00001000).programmed) := by
  obtain ⟨rxf, need, _, hprobe, hop⟩ := h.steps
  rcases timingSteps_ends h.aloneModeSet (n := 0) rfl h.supported hprobe (delays_under s) with
    ⟨e, g, u, hr⟩ | ⟨hmode, hr⟩ | ⟨hmode, hf, w, hw, hr⟩ <;> rw [hr] at hop
  · exact .inl ⟨_, _, _, hop⟩
  · exact .inr (.inl ⟨hmode, need, hop⟩)
  · exact .inr (.inr ⟨hmode, need, w, hf, hw, hop⟩)

end

/-- A run that begins is not refused (R122, R130). -/
theorem BeginsRun.not_refused {s : State} (h : BeginsRun s) (r : Refusal) :
    opOf .orchInit s ≠ .refused r := by
  intro hr
  rcases h.raises_or_reachesTiming with ⟨e, g, u, hop⟩ | ⟨k, hk⟩
  · cases hop.symm.trans hr
  · rcases hk.ends with ⟨e, g, u, hop⟩ | ⟨_, need, hop⟩ | ⟨_, need, w, _, _, hop⟩ <;>
      cases hop.symm.trans hr

/-! ## The handle of the adjustment clock (R121) -/

/-- The adjustment clock's handle is as it was. -/
def SameAdjHandle (s t : State) : Prop := t.adjHeld = s.adjHeld

theorem sameAdjHandle_steady : Steady SameAdjHandle where
  refl _ := rfl
  trans _ _ _ h k := k.trans h

theorem sameAdjHandle_mwHeld (held m v : Word) (s : State) : SameAdjHandle s (s.mwHeld held m v) := by
  rw [SameAdjHandle, (mwHeld_spec held m v s).1]

theorem applyTiming_sameAdjHandle (mode : PhyMode) (tx rx : Word) (s : State) :
    (applyTiming mode tx rx s).All (SameAdjHandle s) := by
  have hS := sameAdjHandle_steady
  have hgap : ∀ u, SameAdjHandle u (u.gap 0) := gap_adjHeld 0
  have hmw := fun m v u => sameAdjHandle_mwHeld 0 m v u
  refine hS.applyTiming (fun u dc rxf mode => hS.timingSteps (fun _ => rfl) hgap (fun _ _ => rfl)
    (fun u dc => hmw _ dc u) (fun u v => hmw invM v u) (hmw refM _) (fun u => ?_) (fun u => ?_)
    mode dc rxf u) mode tx rx s
  · exact hS.setRate (fun _ => rfl) hgap (fun _ => rfl) (fun _ _ _ => rfl)
      (fun u v => sameAdjHandle_mwHeld selM selM v u) (fun u v => sameAdjHandle_mwHeld divM divM v u)
      _ _ u
  · exact hS.enableChain (fun _ => rfl)
      (fun u _ => hmw gateM 0x00000400 { u with run0 := true, run1 := true }) (fun _ _ _ => rfl) _ u

/-- No step after the lookup touches the handle. -/
theorem applyConfig_sameAdjHandle (c : Cfg) (s : State) :
    (applyConfig c s).All (SameAdjHandle s) := by
  have hS := sameAdjHandle_steady
  refine hS.andThen (hS.applyPhyMode _ _ s (fun m v _ => sameAdjHandle_mwHeld 0 m v s))
    (fun u _ => hS.andThen (applyTiming_sameAdjHandle _ _ _ u) (fun _ _ => rfl))

/-- However a run ends, the handle is held where it was before or the clock was found (R121). -/
theorem BeginsRun.adjHeld {s : State} (h : BeginsRun s) :
    (opOf .orchInit s).All
      (fun u => u.adjHeld = true ↔ s.adjHeld = true ∨ s.env.adjNow = .present) := by
  rcases adjLookup_cases s.env.adjNow with ⟨k, hk⟩ | ⟨v, hv⟩
  · have hbuild : (buildChain (s.adjFound k)).All (SameAdjHandle (s.adjFound k)) :=
      (buildChain_frame _).mono (fun u hu => by rw [SameAdjHandle, hu])
    rw [h.opOf_found hk]
    refine (sameAdjHandle_steady.andThen hbuild (fun u _ => applyConfig_sameAdjHandle _ u)).mono
      (fun u hu => ?_)
    rw [hu, State.adjFound, hk, AdjClk.answer_present]
    simp
  · rw [h.adjFails hv, hv]
    cases v <;> simp [Acquisition.adjAnswer, State.running]

/-! ## The first error of a run (R120, R130) -/

/-- An rx delay outside 0 and 2 is rejected before anything is done (R120). -/
theorem exec_orchInit_badDelay {s : State} (ha : s.agent = .host) (hidle : s.result = .idle)
    (hfam : s.desc.namesFamily = true) (h0 : s.desc.rxDelay.getD 0 ≠ 0)
    (h2 : s.desc.rxDelay.getD 0 ≠ 2) :
    exec .orchInit s =
      .next (s.running.failedWith (.invalidDelayValue (s.desc.rxDelay.getD 0)) .validate) := by
  have hbad : validateDelay s.acquired s.running =
      .raised (.invalidDelayValue (s.desc.rxDelay.getD 0)) .validate s.running :=
    if_neg (not_or.2 ⟨h0, h2⟩)
  refine exec_host_raised (i := .orchInit) (u := s.running) ha nofun ?_ rfl
  rw [opOf_orchInit hidle hfam, configure, hbad]
  rfl

/-- A run that begins has a next state, which reports the error where one is raised (R129, R131). -/
theorem BeginsRun.exec_next {s : State} (h : BeginsRun s) :
    ∃ t, exec .orchInit s = .next t ∧
      (t.adjHeld = true ↔ s.adjHeld = true ∨ s.env.adjNow = .present) ∧
      ∀ e g u, opOf .orchInit s = .raised e g u → t.result = .failed e g := by
  have hheld := h.adjHeld
  have hagent := opOf_orchInit_agent h.idle h.family
  cases hop : opOf .orchInit s with
  | refused r => exact absurd hop (h.not_refused r)
  | done u =>
    rw [hop] at hheld
    exact ⟨_, exec_host_done (i := .orchInit) h.alone.1 nofun hop, hheld, fun _ _ _ hr => by cases hr⟩
  | raised e g u =>
    rw [hop] at hheld hagent
    refine ⟨_, exec_host_raised (i := .orchInit) h.alone.1 nofun hop hagent, hheld, ?_⟩
    intro e' g' u' hr
    cases hr
    rfl

/-- Where its bit is probed, step 4 is the start of the adjustment clock (R113). -/
theorem adjCheck_needed {s : State} {dc rxf : Word}
    (h : adjEnBit (s.params.adjCheckOn.probe dc rxf) = true) : adjCheck dc rxf s = startAdj false s :=
  if_pos h

section
variable {s : State} {k : AdjClk} (h : ReachesTiming s k)
include h

/-- Step 4 raises where the clock it asks for is absent (R113). -/
theorem ReachesTiming.clockMissing
    (hneed : needsAdjClock s (phyModeOf s.desc.mode) (s.desc.rxDelay.getD 0)) (hk : k = .absent) :
    ∃ u, opOf .orchInit s = .raised (.missingMandatoryClock .adjustment) .timingApply u := by
  obtain ⟨rxf, need, hb, hprobe, hop⟩ := h.steps
  have hadj := (adjCheck_needed (hprobe.trans (hb.2 hneed))).trans
    (startAdj_absent (s := s.modeSet k) hk false)
  rw [timingSteps_adjRaised hadj] at hop
  exact ⟨_, hop⟩

/-- And where the clock fails to start (R113). -/
theorem ReachesTiming.clockFails
    (hneed : needsAdjClock s (phyModeOf s.desc.mode) (s.desc.rxDelay.getD 0)) (hk : k = .present)
    (hf : s.env.failAt 4 = true) :
    ∃ u, opOf .orchInit s = .raised (.clockEnableFailed .adjustment) .timingApply u := by
  obtain ⟨rxf, need, hb, hprobe, hop⟩ := h.steps
  have hadj := (adjCheck_needed (hprobe.trans (hb.2 hneed))).trans
    (startAdj_fail (s := s.modeSet k) hk ((modeSet_failAt s k 0).trans hf) false)
  rw [timingSteps_adjRaised hadj] at hop
  exact ⟨_, hop⟩

/-- With step 4 done, the answer to the rate request and then that to the enable decide: the answers after
the four registrations and, where step 4 draws one, its own (R115, R130). -/
theorem ReachesTiming.rateFails (hm : phyModeOf s.desc.mode ≠ .rmii)
    (hclk : needsAdjClock s (phyModeOf s.desc.mode) (s.desc.rxDelay.getD 0) →
      k = .present ∧ s.env.failAt 4 = false) {j : Nat}
    (h5 : needsAdjClock s (phyModeOf s.desc.mode) (s.desc.rxDelay.getD 0) → j = 5)
    (h4 : ¬ needsAdjClock s (phyModeOf s.desc.mode) (s.desc.rxDelay.getD 0) → j = 4) :
    (s.env.failAt j = true → ∃ u, opOf .orchInit s = .raised .rateSetFailed .timingApply u) ∧
    (s.env.failAt j = false → s.env.failAt (j + 1) = true →
      ∃ u, opOf .orchInit s = .raised (.clockEnableFailed .rgmiiTx) .timingApply u) := by
  obtain ⟨rxf, need, hb, hprobe, hop⟩ := h.steps
  have hj : j = 4 + need.toNat := by
    cases need with
    | true => exact h5 (hb.1 rfl)
    | false => exact h4 (fun hneed => Bool.false_ne_true (hb.2 hneed))
  have hadj := adjCheck_ok hprobe (fun hn => by
    obtain ⟨hk, hf⟩ := hclk (hb.1 hn)
    exact ⟨hk, (modeSet_failAt s k 0).trans hf⟩)
  have hfam := isRgmiiFamily_iff.2 ⟨hm, h.supported⟩
  subst hj
  rw [← modeSet_failAt s k, Nat.add_assoc, ← modeSet_failAt s k]
  refine ⟨fun hf => ?_, fun hf hf' => ?_⟩
  · rw [timingSteps_rateFails (n := 0) h.aloneModeSet hfam hadj rfl (delays_under s) hf] at hop
    exact ⟨_, hop⟩
  · rw [timingSteps_enableFails (n := 0) h.aloneModeSet hfam hadj rfl (delays_under s) hf hf'] at hop
    exact ⟨_, hop⟩

end

/-- Settles O50: each answer that fails makes its step raise, and the steps before it are done. -/
theorem firstFailureEndsTheRun : Obligations.FirstFailureEndsTheRun := by
  refine ⟨fun s rx ha hidle hfam hdelay h0 h2 => ?_, ?_⟩
  · have hget : s.desc.rxDelay.getD 0 = rx := by rw [hdelay]; rfl
    have hexec := exec_orchInit_badDelay ha hidle hfam (by rwa [hget]) (by rwa [hget])
    rw [State.running, State.acquired, hget] at hexec
    exact hexec
  intro s halone hidle hfam hrx mode need
  have h : BeginsRun s := ⟨halone, hidle, hfam, hrx⟩
  obtain ⟨t, hexec, hheld, hres⟩ := h.exec_next
  refine ⟨t, hexec, hheld, fun hv => hres _ _ _ (h.adjFails (v := .transient) hv),
    fun hv => hres _ _ _ (h.adjFails (v := .permanent) hv), fun hadj => ?_⟩
  obtain ⟨k, hk⟩ := exists_adjAnswer hadj
  have hbuild : ∀ {e g u}, buildChain (s.adjFound k) = .raised e g u → t.result = .failed e g :=
    fun hb => hres _ _ _ (h.buildFails hk hb)
  refine ⟨fun h0 => hbuild (buildChain_lookup0_fails (v := .transient) h0),
    fun h0 => hbuild (buildChain_lookup0_fails (v := .permanent) h0),
    fun h0 h1 => hbuild (buildChain_lookup1_fails (v := .transient) h0 h1),
    fun h0 h1 => hbuild (buildChain_lookup1_fails (v := .permanent) h0 h1),
    fun h0 h1 => ⟨fun j n hn hok hf => hbuild (buildChain_registration_fails h0 h1 hn hok hf),
      fun hok x hx => ?_, fun hok hm => ?_⟩⟩
  · rw [hx]
    exact hres _ _ _ (BuildsChain.modeFails ⟨h, hk, h0, h1, hok⟩ hx)
  have hr : ReachesTiming s k := ⟨⟨h, hk, h0, h1, hok⟩, hm⟩
  have hpresent : s.env.adjNow = .present → k = .present := fun hp =>
    AdjClk.answer_present.1 (hk.symm.trans hp)
  refine ⟨fun hneed hp => ?_, fun hneed hp hf => ?_, fun hrmii hclk j h5 h4 => ?_⟩
  · have habsent : k = .absent := by cases k <;> simp_all [AdjClk.answer]
    obtain ⟨u, hop⟩ := hr.clockMissing hneed habsent
    exact hres _ _ _ hop
  · obtain ⟨u, hop⟩ := hr.clockFails hneed (hpresent hp) hf
    exact hres _ _ _ hop
  · obtain ⟨hrate, henable⟩ := hr.rateFails hrmii
      (fun hneed => ⟨hpresent (hclk hneed).1, (hclk hneed).2⟩) h5 h4
    refine ⟨fun hf => ?_, fun hf hf' => ?_⟩
    · obtain ⟨u, hop⟩ := hrate hf
      exact hres _ _ _ hop
    · obtain ⟨u, hop⟩ := henable hf hf'
      exact hres _ _ _ hop

/-! ## A run under the reference resolver, its release, and the run again (R125) -/

/-- A Programmed run began: it was not refused, and its delay was not rejected (R119, R120, R122). -/
theorem beginsRun_of_programmed {s t : State} (h : HostAlone s) (hexec : exec .orchInit s = .next t)
    (hp : t.result = .programmed) : BeginsRun s := by
  obtain ⟨_, hnotIdle, hunknown⟩ := orchInitProgramsRmii
  have hidle : s.result = .idle := by
    by_contra hidle
    cases (hnotIdle s h.1 hidle).symm.trans hexec
  have hfam : s.desc.namesFamily = true := by
    by_contra hfam
    cases (hunknown s h.1 hidle (Bool.not_eq_true _ ▸ hfam)).symm.trans hexec
  refine ⟨h, hidle, hfam, ?_⟩
  by_contra hrx
  obtain ⟨h0, h2⟩ := not_or.1 hrx
  cases (exec_orchInit_badDelay h.1 hidle hfam h0 h2).symm.trans hexec
  cases hp

/-- Of the ends of `ReachesTiming.ends`, a Programmed run has one of the two that are done. -/
theorem programmed_ends {s t : State} (h : HostAlone s) (hexec : exec .orchInit s = .next t)
    (hp : t.result = .programmed) :
    ∃ k, ReachesTiming s k ∧ ∃ u, t = u.programmed.advance ∧
      ((phyModeOf s.desc.mode = .rmii ∧ ∃ need,
          u = (((s.modeSet k).delaySet need s.delays).afterMw invM 0x00000800).afterMw
            refM 0x00001000) ∨
        (isRgmiiFamily (phyModeOf s.desc.mode) = true ∧ ∃ need w,
          (s.modeSet k).env.failAt need.toNat = false ∧
          EnabledOnce 0 ((s.modeSet k).rateDone need s.delays) w ∧
          u = w.afterMw refM 0x00001000)) := by
  have hbegins := beginsRun_of_programmed h hexec hp
  obtain ⟨t', hexec', _, hres⟩ := hbegins.exec_next
  obtain rfl : t' = t := Host.Outcome.next.inj (hexec'.symm.trans hexec)
  have hnoRaise : ¬ ∃ e g u, opOf .orchInit s = .raised e g u := by
    rintro ⟨e, g, u, hop⟩
    cases hp.symm.trans (hres e g u hop)
  have hagent := opOf_orchInit_agent hbegins.idle hbegins.family
  have hdone : ∀ u : State, opOf .orchInit s = .done u.programmed → t' = u.programmed.advance := by
    intro u hop
    rw [hop] at hagent
    have hnext := (exec_host_done (i := .orchInit) h.1 nofun hop).symm.trans hexec
    rw [complete_host (s := u.programmed) (hagent.trans h.1)] at hnext
    exact (Host.Outcome.next.inj hnext).symm
  obtain ⟨k, hk⟩ := hbegins.raises_or_reachesTiming.resolve_left hnoRaise
  refine ⟨k, hk, ?_⟩
  rcases hk.ends.resolve_left hnoRaise with ⟨hmode, need, hop⟩ | ⟨hmode, need, w, hf, hw, hop⟩
  · exact ⟨_, hdone _ hop, .inl ⟨hmode, need, rfl⟩⟩
  · exact ⟨_, hdone _ hop, .inr ⟨hmode, need, w, hf, hw, rfl⟩⟩

/-- The bits of PRG_ETH0 that a run keeps under the reference resolver (R142). -/
def State.keptMask (s : State) : Word :=
  if phyModeOf s.desc.mode = .rmii then modeKeep s.params.family &&& ~~~delayMaskWord s
  else s.rgmiiMask

/-- The bits that such a run sets, in either kind of mode. -/
def State.setBits (s : State) : Word :=
  if phyModeOf s.desc.mode = .rmii then modeValue s.params.family .rmii ||| 0x00001800
  else s.rgmiiBits

theorem selBit_keptMask (s : State) : selBit s.keptMask = true := by
  unfold State.keptMask
  split
  · unfold modeKeep delayMaskWord
    cases s.params.family <;> cases s.params.delayMask <;> rfl
  · exact selBit_rgmiiMask s

theorem selBit_setBits (s : State) : selBit s.setBits = false := by
  unfold State.setBits
  split
  · cases s.params.family <;> rfl
  · exact selBit_rgmiiBits s

/-- Where a Programmed run under the reference resolver ends, from any state: PRG_ETH0 is what it kept and
what it set, the parents have their rates, and a gate it opened is among the bits set (R100, R142). -/
structure SettledBy (s t : State) : Prop where
  reg0 : t.reg0 = (s.reg0 &&& s.keptMask) ||| s.setBits
  p0 : t.p0 = s.p0
  p1 : t.p1 = s.p1
  gate : t.chain.enabled = true → ∃ x, s.setBits = 0x00000400 ||| x

theorem settledBy_of_rmii {s : State} {k : AdjClk} {need : Bool} (hm : phyModeOf s.desc.mode = .rmii) :
    SettledBy s ((((s.modeSet k).delaySet need s.delays).afterMw invM 0x00000800).afterMw
      refM 0x00001000).programmed.advance where
  reg0 := by
    have hdc : s.delays = 0#32 := by simp [State.delays, delayValue, hm]
    have hwords := modeSet_delaysCleared s k
    rw [hm, BitVec.and_assoc] at hwords
    show merge (merge (merge (s.modeSet k).reg0 (delayMaskWord s) s.delays) invM invM) refM refM = _
    rw [merge_ones, merge_ones, hdc, merge, BitVec.zero_and, BitVec.or_zero, hwords,
      State.keptMask, State.setBits, if_pos hm, if_pos hm]
    simp only [BitVec.or_assoc]
    rfl
  p0 := rfl
  p1 := rfl
  gate := nofun

theorem settledBy_of_rgmii {s w : State} {k : AdjClk} {need : Bool} (h : ReachesTiming s k)
    (hm : phyModeOf s.desc.mode ≠ .rmii) (href : ReferenceResolver s)
    (hf : (s.modeSet k).env.failAt need.toNat = false)
    (hw : EnabledOnce 0 ((s.modeSet k).rateDone need s.delays) w) :
    SettledBy s (w.afterMw refM 0x00001000).programmed.advance := by
  obtain ⟨hreg, hp0, hp1, _⟩ := rateDone_reference (n := 0) h.aloneModeSet rfl need (delays_under s) hf
    (modeSet_referenceResolver href k)
  have hregS : ((s.modeSet k).rateDone need s.delays).reg0 =
      (delayWritten (s.modeSet k) s.delays &&& 0xFFFFFC7F) |||
        BitVec.ofNat 32 (128 * s.referenceDiv) := by
    rw [← modeSet_referenceDiv s k]
    exact hreg
  refine ⟨?_, ?_, ?_,
    fun _ => ⟨0x00001001 ||| (s.delays ||| BitVec.ofNat 32 (128 * s.referenceDiv)), ?_⟩⟩
  · refine hw.reg0_afterRef.trans ?_
    rw [hregS, if_pos rfl, or_outside (by rfl), rgmiiKept_eq hm, rgmiiKept_reference, State.keptMask,
      State.setBits, if_neg hm, if_neg hm]
  · exact (congrArg State.p0 hw.frame).trans hp0
  · exact (congrArg State.p1 hw.frame).trans hp1
  · rw [State.setBits, if_neg hm, State.rgmiiBits, BitVec.or_assoc]
    exact BitVec.or_assoc 0x00000400 0x00001001 _

theorem settledBy_of_programmed {s t : State} (h : HostAlone s) (href : ReferenceResolver s)
    (hexec : exec .orchInit s = .next t) (hp : t.result = .programmed) : SettledBy s t := by
  obtain ⟨k, hk, u, rfl, ⟨hmode, need, rfl⟩ | ⟨hmode, need, w, hf, hw, rfl⟩⟩ :=
    programmed_ends h hexec hp
  · exact settledBy_of_rmii hmode
  · exact settledBy_of_rgmii hk (isRgmiiFamily_iff.1 hmode).1 href hf hw

/-- Alone on the bus, every operation leaves nobody else on the bus, and the parents' rates unless it
makes a rate request (R53, R99). -/
theorem exec_alone {i : Instr} {s t : State} (hs : ExclusiveInit s) (h : exec i s = .next t) :
    ExclusiveInit t ∧ (¬ MakesRateRequest i → t.p0 = s.p0 ∧ t.p1 = s.p1) := by
  obtain ⟨ht, _, hrates⟩ := exec_keepsAlone (k := 0) h (fun _ _ => BitVec.and_zero) (fun _ => rfl)
    BitVec.and_zero (fun _ _ => BitVec.and_zero) hs
  exact ⟨ht, hrates⟩

/-- Alone on the bus, the release closes the gate of an enabled chain and touches nothing else of PRG_ETH0
(R132). -/
theorem exec_orchRelease_reg0_alone {s t : State} (hs : ExclusiveInit s) (h : exec .orchRelease s = .next t) :
    t.reg0 = if s.chain.enabled = true then s.reg0 &&& ~~~0x00000400 else s.reg0 := by
  obtain ⟨ha, _, rfl⟩ := execOrchRelease_next h
  rw [backToIdle_reg0]
  cases hc : s.chain with
  | none => simp [State.releaseResources, hc, Chain.enabled]
  | built n =>
    cases n with
    | zero => simp [State.releaseResources, hc, Chain.enabled, State.dropChain]
    | succ n =>
      have hgap : (s.disableTo 0).env.gapAt 0 = [] := by
        rw [disableTo_zero_alone ⟨ha, hs⟩]
        exact hs.1 2
      rw [releaseResources_built hc, gap_alone hgap, disableTo_zero_alone ⟨ha, hs⟩]
      simp [Chain.enabled]

/-- Keeping and setting again changes nothing, whatever was done to the bits that are set. -/
theorem keep_set_again {v w m b : Word} (h : v ||| b = (w &&& m) ||| b) :
    (v &&& m) ||| b = (w &&& m) ||| b := by
  apply BitVec.eq_of_getElem_eq
  intro i hi
  have hbit : (v[i] || b[i]) = ((w[i] && m[i]) || b[i]) := by
    rw [← BitVec.getElem_or, h, BitVec.getElem_or, BitVec.getElem_and]
  simp only [BitVec.getElem_or, BitVec.getElem_and]
  cases hm : m[i] <;> simp_all

/-- Bits that are set anyway can be cleared before. -/
theorem clear_set (c y x : Word) : (c &&& ~~~y) ||| (y ||| x) = c ||| (y ||| x) := by
  apply BitVec.eq_of_getElem_eq
  intro i hi
  cases hy : y[i] <;> simp [hy]

/-- Settles O53: the second run keeps and sets the same bits, and what the release cleared is among them. -/
theorem configuringTwiceIsIdempotent : Obligations.ConfiguringTwiceIsIdempotent := by
  intro s t1 t2 t3 h href hexec hp hrelease href2 hexec2 hp2
  obtain ⟨hx1, _⟩ := exec_alone h.2 hexec
  obtain ⟨hx2, hrates⟩ := exec_alone hx1 hrelease
  obtain ⟨ha2, _⟩ := hostOnly_eq_next.1 hexec2
  obtain ⟨hreg1, hp0, hp1, hgate⟩ := settledBy_of_programmed h href hexec hp
  obtain ⟨hreg3, _, _, _⟩ := settledBy_of_programmed ⟨ha2, hx2⟩ href2 hexec2 hp2
  have hreg2 := exec_orchRelease_reg0_alone hx1 hrelease
  obtain ⟨h20, h21⟩ := hrates (by simp [MakesRateRequest])
  have hprog := configChange_any.steady.trans _ _ _ (exec_sameProgram hexec) (exec_sameProgram hrelease)
  have hset : t2.reg0 ||| s.setBits = (s.reg0 &&& s.keptMask) ||| s.setBits := by
    rw [hreg2]
    split
    · obtain ⟨x, hx⟩ := hgate ‹_›
      rw [hx, clear_set, ← hx, hreg1, BitVec.or_assoc, BitVec.or_self]
    · rw [hreg1, BitVec.or_assoc, BitVec.or_self]
  have hsel : selBit t2.reg0 = selBit s.reg0 := by
    rw [← selBit_or (selBit_setBits s), hset, selBit_and_or (selBit_keptMask s) (selBit_setBits s)]
  have hmask : t2.keptMask = s.keptMask := by
    simp only [State.keptMask, State.rgmiiMask, delayMaskWord, hprog.params, hprog.desc]
  have hbits : t2.setBits = s.setBits := by
    simp only [State.setBits, State.rgmiiBits, State.delays, State.referenceDiv, State.parentRate,
      hprog.params, hprog.desc, hsel, h20, h21, hp0, hp1]
  rw [hreg3, hmask, hbits, keep_set_again hset, hreg1]

end Sys2Proof.Machine

/-! # The exceptions family (60_exceptions.md): what DATAPATH is refused, what a failing run leaves, and the
release that ends a run -/

namespace Sys2Proof.Machine

/-! ## The rights of DATAPATH (R134, R144) -/

theorem hostOnly_datapath {s : State} (ha : s.agent = .datapath) (op : State → Res) :
    hostOnly s op = .refused .agentForbidden := by
  simp [hostOnly, ha]

theorem rateRequest_forbidden {s : State} {node : Node} (ha : s.agent = .datapath)
    (h : ¬ (node = .rgmiiTxEn ∧ s.result = .programmed)) (op : State → Res) :
    rateRequest s node op = .refused .agentForbidden := by
  simp only [rateRequest, ha, if_neg h]

/-- Settles O32: an operation is WR.ETH1, or it is HOST's alone, or it is a rate operation, which DATAPATH
has on one node and after a Programmed run only. -/
theorem otherDatapathOperationsAreRefused : Obligations.OtherDatapathOperationsAreRefused := by
  intro i s ha h
  by_cases hw : ∃ v, i = .wrEth1 v
  · obtain ⟨v, rfl⟩ := hw
    exact .inr ⟨⟨v, rfl⟩, rfl⟩
  left
  by_cases hrel : i = .orchRelease
  · subst hrel
    simp [exec, execOrchRelease, ha]
  rcases exec_eq i s (not_exists.1 hw) hrel with he | ⟨node, hi, he⟩
  · exact he.trans (hostOnly_datapath ha _)
  · refine he.trans (rateRequest_forbidden ha ?_ _)
    rintro ⟨rfl, hp⟩
    obtain ⟨hget, hother⟩ := h.resolve_left (fun hne => hne hp)
    rcases hi with rfl | ⟨hz, rfl⟩ | ⟨hz, rfl⟩
    · exact hget rfl
    · exact (hother hz).1 rfl
    · exact (hother hz).2 rfl

/-! ## ORCH.RELEASE (R132, R155) -/

theorem finished_iff {r : RunResult} :
    r.finished = true ↔ r = .programmed ∨ ∃ k g, r = .failed k g := by
  cases r <;> simp [RunResult.finished]

/-- A chain is enabled where at least one enable is outstanding (R88, R101). -/
theorem enabled_iff {c : Chain} : c.enabled = true ↔ ∃ n, c = .built (n + 1) := by
  cases c with
  | none => simp [Chain.enabled]
  | built n => simp [Chain.enabled, Nat.pos_iff_ne_zero, Nat.exists_eq_add_one]

/-- The release of a chain that is not enabled, built or not, lets go of all and does nothing else. -/
theorem releaseResources_notEnabled {s : State} (hc : s.chain.enabled = false) :
    s.releaseResources = { s with
      chain := .none
      stages := []
      par0Held := false
      par1Held := false
      adjHeld := false
      adjEnabled := false } := by
  cases h : s.chain with
  | none => simp [State.releaseResources, h]
  | built n =>
    obtain rfl : n = 0 := by simpa [h, Chain.enabled] using hc
    simp [State.releaseResources, h, State.dropChain]

/-- Alone on the bus, the release of an enabled chain is the one masked write that closes the gate, and the
draw of the parents (R102, R132). -/
theorem releaseResources_enabled_alone {s : State} (h : HostAlone s) (hc : s.chain.enabled = true) :
    s.releaseResources = { s.afterMw 0x00000400 0x00000000 with
      chain := .none
      stages := []
      par0Held := false
      par1Held := false
      adjHeld := false
      adjEnabled := false
      run0 := s.env.parentsNow.1
      run1 := s.env.parentsNow.2
      env := { s.env with nParents := s.env.nParents + 1, nGap := s.env.nGap + 3 } } := by
  obtain ⟨n, hn⟩ := enabled_iff.1 hc
  have hgap : (s.disableTo 0).env.gapAt 0 = [] := by
    rw [disableTo_zero_alone h]
    exact h.2.1 2
  rw [releaseResources_built hn, gap_alone hgap, disableTo_zero_alone h]

/-- Settles O52: whether the chain is enabled decides between one masked write and none. -/
theorem orchReleaseReturnsToIdle : Obligations.OrchReleaseReturnsToIdle := by
  refine ⟨fun s h hf => ⟨_, exec_orchRelease h.1 (finished_iff.2 hf), ?_⟩, fun s ha hf => ?_⟩
  · cases hc : s.chain.enabled with
    | true =>
      rw [releaseResources_enabled_alone h hc]
      exact ⟨fun _ => ⟨merge_gate_close s.reg0, by simp⟩, nofun, rfl⟩
    | false =>
      rw [releaseResources_notEnabled hc]
      exact ⟨nofun, fun _ => ⟨rfl, rfl, rfl, rfl, rfl, rfl⟩, rfl⟩
  · rcases hf with hf | hf <;> simp [exec, execOrchRelease, ha, hf, RunResult.finished]

/-! ## CHAIN.BUILD inside a run (R87, R143) -/

/-- The errors of a CHAIN.BUILD that runs in `s`, and the state each is raised in. -/
inductive BuildFailure (s : State) : ErrKind → State → Prop
  | lookup0 (v : Acquisition) : BuildFailure s (.clockAcquisitionFailed v .parent0) s.popLookup
  | lookup1 (v : Acquisition) : BuildFailure s (.clockAcquisitionFailed v .parent1)
      { s.popLookup with par0Held := true }.popLookup
  | registration (k : Nat) (n : Node) : BuildFailure s (.clockRegistrationFailed n)
      (s.parentsHeld.registered (allStages.take k) (k + 1))

/-- Either every answer is good, or CHAIN.BUILD raises. -/
theorem buildChain_cases (s : State) :
    (s.env.lookupAt 0 = .ok ∧ s.env.lookupAt 1 = .ok ∧ NoFailure s 4) ∨
      ∃ e u, BuildFailure s e u ∧ buildChain s = .raised e .chainBuild u := by
  rcases lookup_cases (s.env.lookupAt 0) with h0 | ⟨v, h0⟩
  · rcases lookup_cases (s.env.lookupAt 1) with h1 | ⟨v, h1⟩
    · rcases noFailure_or_first s 4 with hok | ⟨k, hk, hok, hf⟩
      · exact .inl ⟨h0, h1, hok⟩
      · have hn : allStages[k]? = some allStages[k] := List.getElem?_eq_getElem hk
        exact .inr ⟨_, _, .registration k _, buildChain_registration_fails h0 h1 hn hok hf⟩
    · exact .inr ⟨_, _, .lookup1 v, buildChain_lookup1_fails h0 h1⟩
  · exact .inr ⟨_, _, .lookup0 v, buildChain_lookup0_fails h0⟩

/-! ## The failing runs (R130, R131, R143) -/

/-- The errors of an ORCH.INIT issued in `s`, alone on the bus, with the stage each is reported in and the
state it is raised in (R130). -/
inductive RunFailure (s : State) : ErrKind → Stage → State → Prop
  | delay : RunFailure s (.invalidDelayValue (s.desc.rxDelay.getD 0)) .validate s.running
  | adjLookup (v : Acquisition) :
      RunFailure s (.clockAcquisitionFailed v .adjustment) .acquireAdj s.running.popAdj
  | build {k : AdjClk} {e : ErrKind} {u : State} (h : BuildFailure (s.adjFound k) e u) :
      RunFailure s e .chainBuild u
  | mode (k : AdjClk) :
      RunFailure s (.invalidPhyMode (phyModeOf s.desc.mode)) .phymodeApply (s.chainUp k)
  | timing (k : AdjClk) {e : ErrKind} {g : Stage} {u : State} (h : ReachesTiming s k)
      (hr : opOf .timingApply (s.modeSet k) = .raised e g u) : RunFailure s e g u

/-- A raise of a run past the validation, step by step. -/
theorem BeginsRun.runFailure {s u : State} {e : ErrKind} {g : Stage} (h : BeginsRun s)
    (hr : opOf .orchInit s = .raised e g u) : RunFailure s e g u := by
  rcases adjLookup_cases s.env.adjNow with ⟨k, hk⟩ | ⟨v, hv⟩
  · rcases buildChain_cases (s.adjFound k) with ⟨h0, h1, hok⟩ | ⟨e', u', hb, hbuild⟩
    · have hbuilds : BuildsChain s k := ⟨h, hk, h0, h1, hok⟩
      by_cases hx : ∃ x, phyModeOf s.desc.mode = .other x
      · obtain ⟨x, hx⟩ := hx
        cases (hbuilds.modeFails hx).symm.trans hr
        exact hx ▸ .mode k
      · have hreach : ReachesTiming s k := ⟨hbuilds, not_exists.1 hx⟩
        refine .timing k hreach ?_
        rcases andThen_eq_raised.1 (hreach.opOf_timing.symm.trans hr) with ht | ⟨w, _, hw⟩
        · exact ht
        · cases hw
    · cases (h.buildFails hk hbuild).symm.trans hr
      exact .build hb
  · cases (h.adjFails hv).symm.trans hr
    exact .adjLookup v

/-- A run that is not refused was idle, and its description names a family (R119, R122). -/
theorem exec_orchInit_accepted {s t : State} (ha : s.agent = .host)
    (hexec : exec .orchInit s = .next t) : s.result = .idle ∧ s.desc.namesFamily = true := by
  obtain ⟨_, hnotIdle, hunknown⟩ := orchInitProgramsRmii
  have hidle : s.result = .idle := by
    by_contra hidle
    cases (hnotIdle s ha hidle).symm.trans hexec
  refine ⟨hidle, ?_⟩
  by_contra hfam
  cases (hunknown s ha hidle (Bool.not_eq_true _ ▸ hfam)).symm.trans hexec

/-- A run that fails takes one of these raises, and nothing is undone (R131). -/
theorem runFailure_of_failed {s t : State} {kind : ErrKind} {stage : Stage} (h : HostAlone s)
    (hexec : exec .orchInit s = .next t) (ht : t.result = .failed kind stage) :
    ∃ u, RunFailure s kind stage u ∧ t = u.failedWith kind stage := by
  obtain ⟨hidle, hfam⟩ := exec_orchInit_accepted h.1 hexec
  by_cases hrx : s.desc.rxDelay.getD 0 = 0 ∨ s.desc.rxDelay.getD 0 = 2
  · have hagent := opOf_orchInit_agent hidle hfam
    rcases settle_eq_next.1 (exec_next hexec nofun).1 with ⟨u, hu, rfl⟩ | ⟨e, g, u, hu, rfl⟩
    · rw [opOf_orchInit hidle hfam] at hu
      obtain ⟨v, _, hv⟩ := andThen_eq_done.1 hu
      cases hv
      cases ht
    · rw [hu] at hagent
      rw [takeRaise_host (hagent.trans h.1)] at ht ⊢
      cases ht
      exact ⟨u, BeginsRun.runFailure ⟨h, hidle, hfam, hrx⟩ hu, rfl⟩
  · obtain ⟨h0, h2⟩ := not_or.1 hrx
    cases (exec_orchInit_badDelay h.1 hidle hfam h0 h2).symm.trans hexec
    cases ht
    exact ⟨_, .delay, rfl⟩

/-- The mode field is none of the enables (R64). -/
theorem modeSet_enables (s : State) (k : AdjClk) :
    (s.modeSet k).reg0 &&& 0x00001400 = s.reg0 &&& 0x00001400 := by
  refine merge_keeps ?_
  cases s.params.family <;> rfl

/-- What a run that fails in TIMING.APPLY leaves is what TIMING.APPLY by itself leaves after the mode is
written. -/
theorem ReachesTiming.exec_timingApply_failed {s u : State} {k : AdjClk} {e : ErrKind} {g : Stage}
    (h : ReachesTiming s k) (hr : opOf .timingApply (s.modeSet k) = .raised e g u) :
    exec .timingApply (s.modeSet k) = .next (u.failedWith e g) := by
  have hrun := opOf_sameRun (i := .timingApply) nofun (s.modeSet k)
  rw [hr] at hrun
  exact exec_host_raised (i := .timingApply) h.aloneModeSet.1 nofun hr hrun.agent

/-- Settles O51: the rows of R143, one for each failure of a run; those of TIMING.APPLY are R118's. -/
theorem failingRunLeavesStateOfTable : Obligations.FailingRunLeavesStateOfTable := by
  intro s t kind stage halone hc hadj hexec ht fam mode dc withMode withDelay
  obtain ⟨u, hu, rfl⟩ := runFailure_of_failed halone hexec ht
  cases hu with
  | delay => exact ⟨rfl, rfl, rfl, .inl ⟨rfl, rfl, rfl, hc, hadj⟩⟩
  | adjLookup v => exact ⟨rfl, rfl, rfl, .inr (.inl ⟨rfl, ⟨v, rfl⟩, rfl, hc, hadj⟩)⟩
  | build hb =>
    cases hb with
    | lookup0 v =>
      exact ⟨rfl, rfl, rfl, .inr (.inr (.inl ⟨rfl, .inl ⟨v, _, .inl rfl, rfl⟩, rfl, hc, hadj⟩))⟩
    | lookup1 v =>
      exact ⟨rfl, rfl, rfl, .inr (.inr (.inl ⟨rfl, .inl ⟨v, _, .inr rfl, rfl⟩, rfl, hc, hadj⟩))⟩
    | registration k n =>
      exact ⟨rfl, rfl, rfl, .inr (.inr (.inl ⟨rfl, .inr ⟨n, rfl⟩, rfl, hc, hadj⟩))⟩
  | mode k =>
    exact ⟨rfl, rfl, rfl, .inr (.inr (.inr (.inl ⟨rfl, rfl, rfl, rfl, hadj⟩)))⟩
  | timing k hreach hr =>
    obtain ⟨rfl, henables, hframe, hrow⟩ := timingFailureKeepsWritesDone (s.modeSet k) _ (s.foundCfg k)
      kind stage hreach.aloneModeSet rfl (fun _ _ => nofun) hreach.supported
      (hreach.exec_timingApply_failed hr) rfl
    have hadj' : (s.modeSet k).adjEnabled = false := hadj
    have hmode : (s.modeSet k).reg0 = withMode := modeSet_reg0 s k
    rw [hadj', hmode] at hrow
    simp only [Bool.false_eq_true, false_or] at hrow
    refine ⟨by rw [hframe]; rfl, by rw [hframe]; rfl, henables.trans (modeSet_enables s k),
      .inr (.inr (.inr (.inr ?_)))⟩
    have hchain : (u.failedWith kind .timingApply).chain = .built 0 := by rw [hframe]; rfl
    rcases hrow with ⟨hkind, hreg, _⟩ | ⟨hkind, hreg, _, _, hclk⟩ | ⟨hkind, hreg, ⟨o, ho, hends⟩, hclk⟩
    · exact .inl ⟨rfl, hkind.imp And.left And.left, hreg, hchain, hkind.elim And.right And.right⟩
    · exact .inr (.inl ⟨rfl, hkind, hreg, hchain, hclk⟩)
    · exact .inr (.inr ⟨rfl, hkind, hreg, hchain, ⟨o, outcomes_of_modeSet ho, hends⟩, hclk⟩)

end Sys2Proof.Machine

/-! # The reset and hazards family (70_reset_and_hazards.md): what any run that ends Programmed leaves -/

namespace Sys2Proof.Machine

/-! ## The word a run configures (R142) -/

/-- The bits of PRG_ETH0 that no step of a run but its rate request and its enables touches (R142). -/
def State.untouchedMask (s : State) : Word :=
  modeKeep s.params.family &&& ~~~delayMaskWord s &&& 0xFFFFF7FF

/-- The bits that a run sets whatever the delays: the mode, the reference enable, and what the mode adds,
the inversion or the gate (R115 to R117). -/
def State.controlBits (s : State) : Word :=
  modeValue s.params.family (phyModeOf s.desc.mode) |||
    (if phyModeOf s.desc.mode = .rmii then 0x00001800 else 0x00001400)

/-- PRG_ETH0 after a run, but for what a rate request writes (R142). -/
def State.configured (s : State) : Word :=
  (s.reg0 &&& s.untouchedMask) ||| s.controlBits ||| s.delays

theorem delays_and_of_outside {x : Word} (h : 0x00006060 &&& x = 0) (s : State) : s.delays &&& x = 0 := by
  rw [← delays_under, BitVec.and_assoc, h]
  exact BitVec.and_zero

/-- Where a run touches all the bits of `x`, they are as it sets them. -/
theorem configured_and_of_touched {s : State} {x : Word} (h : s.untouchedMask &&& x = 0) :
    s.configured &&& x = (s.controlBits &&& x) ||| (s.delays &&& x) := by
  rw [State.configured, BitVec.and_or_distrib_right, BitVec.and_or_distrib_right, BitVec.and_assoc, h]
  simp

/-- Where it touches none of them and sets none, they are as they were. -/
theorem configured_and_of_untouched {s : State} {x : Word} (h : s.untouchedMask &&& x = x)
    (hset : s.controlBits &&& x = 0) (hdelays : 0x00006060 &&& x = 0) :
    s.configured &&& x = s.reg0 &&& x := by
  rw [State.configured, BitVec.and_or_distrib_right, BitVec.and_or_distrib_right, BitVec.and_assoc, h,
    hset, delays_and_of_outside hdelays]
  simp

/-- A bit that it sets is set. -/
theorem configured_getLsbD {s : State} {i : Nat} (h : s.controlBits.getLsbD i = true) :
    s.configured.getLsbD i = true := by
  simp [State.configured, h]

/-- Words that agree under a mask agree in each of its bits. -/
theorem getLsbD_of_and_eq {a b m : Word} (h : a &&& m = b &&& m) {i : Nat} (hi : m.getLsbD i = true) :
    a.getLsbD i = b.getLsbD i := by
  simpa [hi] using congrArg (BitVec.getLsbD · i) h

theorem controlBits_rmii {s : State} (hm : phyModeOf s.desc.mode = .rmii) :
    s.controlBits = modeValue s.params.family .rmii ||| 0x00001800 := by
  rw [State.controlBits, hm, if_pos rfl]

theorem controlBits_rgmii {s : State} (hm : phyModeOf s.desc.mode ≠ .rmii) :
    s.controlBits = 0x00001401 := by
  rw [State.controlBits, if_neg hm, modeValue, if_neg hm]
  rfl

/-- Both kinds of mode have the mode's value and the reference enable, and no bit outside those, the gate
and the inversion, which is RMII's. -/
theorem controlBits_spec (s : State) :
    s.controlBits &&& ~~~modeKeep s.params.family =
        modeValue s.params.family (phyModeOf s.desc.mode) ∧
      s.controlBits &&& 0xFFFFE3F8 = 0 ∧ refBit s.controlBits = true ∧
      invBit s.controlBits = decide (phyModeOf s.desc.mode = .rmii) := by
  by_cases hm : phyModeOf s.desc.mode = .rmii
  · rw [controlBits_rmii hm, hm]
    cases s.params.family <;> decide
  · rw [controlBits_rgmii hm, modeValue, if_neg hm, decide_eq_false hm]
    cases s.params.family <;> decide

/-- Of the bits that a run leaves alone, under either reading of the delay mask and in either family. -/
theorem untouchedMask_spec (s : State) :
    s.untouchedMask &&& ~~~modeKeep s.params.family = 0 ∧ s.untouchedMask &&& 0x00006060 = 0 ∧
      s.untouchedMask &&& invM = 0 ∧ s.untouchedMask &&& 0xFE000798 = 0xFE000798 ∧
      (s.params.delayMask = .clearsCalibration → s.untouchedMask &&& 0x01FF8000 = 0) := by
  unfold State.untouchedMask delayMaskWord
  cases s.params.family <;> cases s.params.delayMask <;> decide

section
variable (s : State)

theorem configured_mode : s.configured &&& ~~~modeKeep s.params.family =
    modeValue s.params.family (phyModeOf s.desc.mode) := by
  obtain ⟨hmode, _⟩ := untouchedMask_spec s
  obtain ⟨hvalue, _⟩ := controlBits_spec s
  have houtside : 0x00006060 &&& ~~~modeKeep s.params.family = 0 := by cases s.params.family <;> rfl
  rw [configured_and_of_touched hmode, hvalue, delays_and_of_outside houtside]
  exact BitVec.or_zero

theorem configured_delays : s.configured &&& 0x00006060 = s.delays := by
  obtain ⟨_, hdelays, _⟩ := untouchedMask_spec s
  obtain ⟨_, hfew, _⟩ := controlBits_spec s
  rw [configured_and_of_touched hdelays, delays_under, and_eq_of_and_eq (b := 0) hfew rfl]
  exact BitVec.zero_or

theorem configured_inv : invBit s.configured = decide (phyModeOf s.desc.mode = .rmii) := by
  obtain ⟨_, _, hinv, _⟩ := untouchedMask_spec s
  obtain ⟨_, _, _, hbit⟩ := controlBits_spec s
  have hand : s.configured &&& invM = s.controlBits &&& invM := by
    rw [configured_and_of_touched hinv, delays_and_of_outside rfl]
    exact BitVec.or_zero
  exact (getLsbD_of_and_eq hand rfl).trans hbit

theorem configured_ref : refBit s.configured = true := by
  obtain ⟨_, _, href, _⟩ := controlBits_spec s
  exact configured_getLsbD href

theorem configured_reserved : s.configured &&& 0xFE000008 = s.reg0 &&& 0xFE000008 := by
  obtain ⟨_, _, _, hkept, _⟩ := untouchedMask_spec s
  obtain ⟨_, hfew, _⟩ := controlBits_spec s
  exact configured_and_of_untouched (and_eq_of_and_eq (b := 0xFFFFFFFF) hkept rfl)
    (and_eq_of_and_eq (b := 0) hfew rfl) rfl

theorem configured_calibration (h : s.params.delayMask = .clearsCalibration) :
    s.configured &&& 0x01FF8000 = 0 := by
  obtain ⟨_, _, _, _, hcal⟩ := untouchedMask_spec s
  obtain ⟨_, hfew, _⟩ := controlBits_spec s
  rw [configured_and_of_touched (hcal h), delays_and_of_outside rfl, and_eq_of_and_eq (b := 0) hfew rfl]
  rfl

end

/-- In RMII the rate bits and the gate are left alone too (R116). -/
theorem configured_chain_rmii {s : State} (hm : phyModeOf s.desc.mode = .rmii) :
    s.configured &&& 0x00000790 = s.reg0 &&& 0x00000790 := by
  obtain ⟨_, _, _, hkept, _⟩ := untouchedMask_spec s
  have hnone : s.controlBits &&& 0x00000790 = 0 := by
    rw [controlBits_rmii hm]
    cases s.params.family <;> rfl
  exact configured_and_of_untouched (and_eq_of_and_eq (b := 0xFFFFFFFF) hkept rfl) hnone rfl

/-- In the RGMII family the gate is opened (R101, R115). -/
theorem configured_gate_rgmii {s : State} (hm : phyModeOf s.desc.mode ≠ .rmii) :
    gateBit s.configured = true :=
  configured_getLsbD (by rw [controlBits_rgmii hm]; rfl)

/-- ADJ_ENABLE is among the delays only where step 4 asks for the adjustment clock, under either value of
ADJ_CHECK_ON (R111 to R113). -/
theorem needsAdjClock_of_delays {s : State} (hm : ∀ x, phyModeOf s.desc.mode ≠ .other x)
    (hrx : s.desc.rxDelay.getD 0 = 0 ∨ s.desc.rxDelay.getD 0 = 2) (h : adjEnBit s.delays = true) :
    needsAdjClock s (phyModeOf s.desc.mode) (s.desc.rxDelay.getD 0) := by
  obtain ⟨rxf, hrxf⟩ := exists_rxField hrx
  obtain ⟨h2, hmode⟩ := (adjEnBit_combine hrxf (combine_eq_delayValue hrxf hm)).1 h
  exact ⟨h2, fun _ => hmode⟩

/-! ## Where any Programmed run ends (R142) -/

/-- A Programmed run is its steps 4 to 7, done from the state in which the mode is set, and step 4 asked
for the adjustment clock exactly where the configuration needs it (R113, R122). -/
theorem programmed_steps {s t : State} (h : HostAlone s) (hexec : exec .orchInit s = .next t)
    (hp : t.result = .programmed) :
    ∃ k rxf need u, ReachesTiming s k ∧
      (need = true ↔ needsAdjClock s (phyModeOf s.desc.mode) (s.desc.rxDelay.getD 0)) ∧
      adjEnBit ((s.modeSet k).params.adjCheckOn.probe s.delays rxf) = need ∧
      timingSteps (phyModeOf s.desc.mode) s.delays rxf (s.modeSet k) = .done u ∧
      t = u.programmed.complete := by
  obtain ⟨k, hk, _⟩ := programmed_ends h hexec hp
  obtain ⟨rxf, need, hneed, hprobe, hop⟩ := hk.steps
  have hagent := opOf_orchInit_agent hk.idle hk.family
  rcases settle_eq_next.1 (exec_next hexec nofun).1 with ⟨v, hv, rfl⟩ | ⟨e, g, v, hv, rfl⟩
  · obtain ⟨u, hu, hend⟩ := andThen_eq_done.1 (hop.symm.trans hv)
    cases hend
    exact ⟨k, rxf, need, u, hk, hneed, hprobe, inStage_eq_done.1 hu, rfl⟩
  · rw [hv] at hagent
    rw [takeRaise_host (hagent.trans h.1)] at hp
    cases hp

/-- What a Programmed run alone on the bus leaves, whatever the environment answers (R142). -/
structure ConfiguredRun (s t : State) : Prop where
  word : t.reg0 &&& ~~~rateBits = s.configured &&& ~~~rateBits
  rgmii : phyModeOf s.desc.mode ≠ .rmii → 2 ≤ divRaw t.reg0 ∧ t.chain = .built 1
  rmii : phyModeOf s.desc.mode = .rmii → t.reg0 = s.configured ∧ t.chain = .built 0
  adjEnabled : needsAdjClock s (phyModeOf s.desc.mode) (s.desc.rxDelay.getD 0) → t.adjEnabled = true

/-- In RMII the word is written as a whole: clearing the inversion before it is set changes nothing. -/
theorem configured_eq_rmii {s : State} (hm : phyModeOf s.desc.mode = .rmii) :
    (s.reg0 &&& s.keptMask) ||| s.setBits = s.configured := by
  have hdelays : s.delays = 0 := by simp [State.delays, delayValue, hm]
  have hinv : modeValue s.params.family .rmii ||| 0x00001800 =
      0x00000800 ||| (modeValue s.params.family .rmii ||| 0x00001000) := by
    cases s.params.family <;> rfl
  rw [State.keptMask, State.setBits, if_pos hm, if_pos hm, State.configured, controlBits_rmii hm, hdelays,
    hinv, ← clear_set, State.untouchedMask, BitVec.and_assoc]
  exact BitVec.or_zero.symm

/-- In the RGMII family it is what TIMING.APPLY keeps of the word with the mode set. -/
theorem configured_eq_rgmii {s : State} (hm : phyModeOf s.desc.mode ≠ .rmii) :
    s.rgmiiKept = s.configured := by
  rw [State.rgmiiKept, State.configured, State.untouchedMask, controlBits_rgmii hm, BitVec.and_assoc,
    BitVec.and_assoc, BitVec.and_assoc]

theorem configuredRun_rmii {s : State} {k : AdjClk} {need : Bool} (hm : phyModeOf s.desc.mode = .rmii)
    (hneed : needsAdjClock s (phyModeOf s.desc.mode) (s.desc.rxDelay.getD 0) → need = true) :
    ConfiguredRun s ((((s.modeSet k).delaySet need s.delays).afterMw invM 0x00000800).afterMw
      refM 0x00001000).programmed.complete := by
  have hsettled := settledBy_of_rmii (k := k) (need := need) hm
  have hreg := hsettled.reg0.trans (configured_eq_rmii hm)
  exact ⟨congrArg (· &&& ~~~rateBits) hreg, fun hne => absurd hm hne, fun _ => ⟨hreg, rfl⟩,
    fun hn => Bool.or_eq_true_iff.2 (.inr (hneed hn))⟩

theorem configuredRun_rgmii {s w : State} {k : AdjClk} {need : Bool} (h : ReachesTiming s k)
    (hm : phyModeOf s.desc.mode ≠ .rmii)
    (hneed : needsAdjClock s (phyModeOf s.desc.mode) (s.desc.rxDelay.getD 0) → need = true)
    (hw : EnabledOnce 0 ((s.modeSet k).rateDone need s.delays) w) :
    ConfiguredRun s (w.afterMw refM 0x00001000).programmed.complete := by
  have hv := rateDone_spec h.aloneModeSet need (delays_under s)
  have hreg := hw.reg0_afterRef
  have hword : (w.afterMw refM 0x00001000).advance.reg0 &&& ~~~rateBits =
      s.configured &&& ~~~rateBits := by
    rw [hreg, BitVec.and_or_distrib_right, hv.keep, ← BitVec.and_or_distrib_right, if_pos rfl,
      rgmiiKept_eq hm, configured_eq_rgmii hm]
  have hdiv : divRaw (w.afterMw refM 0x00001000).advance.reg0 = (s.modeSet k).txOutcome.div := by
    rw [hreg, divRaw_or (by rfl), hv.div]
  have ⟨hmem, _⟩ : Outcomes (s.modeSet k) 250000000 (s.modeSet k).txOutcome := rateOutcome_mem ..
  obtain ⟨h2, _⟩ := mem_divisors.1 hmem
  refine ⟨hword, fun _ => ⟨h2.trans_eq hdiv.symm, congrArg State.chain hw.frame⟩,
    fun he => absurd he hm, fun hn => ?_⟩
  refine (congrArg State.adjEnabled hw.frame).trans (hv.adjEnabled.trans ?_)
  rw [hneed hn, Bool.or_true]

theorem configuredRun_of_programmed {s t : State} (h : HostAlone s) (hexec : exec .orchInit s = .next t)
    (hp : t.result = .programmed) : ConfiguredRun s t := by
  obtain ⟨k, rxf, need, u, hk, hneed, hprobe, hu, rfl⟩ := programmed_steps h hexec hp
  rcases timingSteps_ends hk.aloneModeSet (n := 0) rfl hk.supported hprobe (delays_under s) with
    ⟨e, g, v, hr⟩ | ⟨hmode, hr⟩ | ⟨hmode, _, w, hw, hr⟩ <;> cases hu.symm.trans hr
  · exact configuredRun_rmii hmode hneed.2
  · exact configuredRun_rgmii hk (isRgmiiFamily_iff.1 hmode).1 hneed.2 hw

/-- Settles O49: each field of the word is under the mask of what a rate request keeps, so it is as
configured. -/
theorem programmedRunSetsConfiguredFields : Obligations.ProgrammedRunSetsConfiguredFields := by
  intro s t h hexec hp fam mode
  obtain ⟨k, hk, _⟩ := programmed_ends h hexec hp
  have hrun := configuredRun_of_programmed h hexec hp
  have hand : ∀ {x : Word}, ~~~rateBits &&& x = x → t.reg0 &&& x = s.configured &&& x :=
    and_eq_of_and_eq hrun.word
  have hbit : ∀ {i : Nat}, (~~~rateBits).getLsbD i = true →
      t.reg0.getLsbD i = s.configured.getLsbD i := getLsbD_of_and_eq hrun.word
  have hdelays := (hand rfl).trans (configured_delays s)
  have hmask : ~~~rateBits &&& ~~~modeKeep s.params.family = ~~~modeKeep s.params.family := by
    cases s.params.family <;> rfl
  refine ⟨(hand hmask).trans (configured_mode s), hdelays, (hbit rfl).trans (configured_inv s),
    (hbit rfl).trans (configured_ref s), fun hm => ?_, fun hm => ?_,
    (hand rfl).trans (configured_reserved s), fun hcal => (hand rfl).trans (configured_calibration s hcal),
    fun hen => hrun.adjEnabled (needsAdjClock_of_delays hk.supported hk.delay ?_)⟩
  · obtain ⟨hdiv, hchain⟩ := hrun.rgmii hm
    exact ⟨(hbit rfl).trans (configured_gate_rgmii hm), hdiv, hchain⟩
  · obtain ⟨hreg, hchain⟩ := hrun.rmii hm
    exact ⟨hreg ▸ configured_chain_rmii hm, hchain⟩
  · exact (getLsbD_of_and_eq (hdelays.trans (delays_under s).symm) rfl).symm.trans hen

end Sys2Proof.Machine
